-- ==== Sys2Proof/Word.lean ====
section
/-! DEFINITION. The widths of the values the VB240 carries in frames and registers (spec 01 section 1.10). -/

namespace Sys2Proof

/-- One byte of a frame. -/
abbrev Byte := BitVec 8

/-- A generation, a publication number, a tag, a tally (16 bits). -/
abbrev Half := BitVec 16

/-- A car identity, a clock value, a check word (32 bits). -/
abbrev Word := BitVec 32

end Sys2Proof
end

