-- ==== Sys2Proof/Syntax.lean ====
section
/-! DEFINITION. The commands the part takes: one constructor for each row of spec/opcode_table.json, with its operands. -/

namespace Sys2Proof

/-- An end of the car, and the coupler port that serves it (00 section 6). -/
inductive End where
  | a | b
  deriving DecidableEq, Repr

/-- The three frame ports (00 section 4). -/
inductive Port where
  | a | b | c
  deriving DecidableEq, Repr

/-- A management request as it is handed to the command unit (R171): its arrival port, the source car identity of its header,
its sequence tag, and the target, request tag and parameter field of its body. The command code is the row's own. -/
structure Request where
  port : Port
  source : Word
  seqTag : Half
  target : Word
  requestTag : Half
  params : List Byte
  deriving DecidableEq, Repr

/-- The commands. A frame operand is the bytes received, as many as the port delivered (R1). -/
inductive Instr where
  | presenceAssertion (e : End)
  | presenceNegation (e : End)
  | wakeInAssertion
  | powerOnReset
  | arrivalOnCouplerPort (e : End) (bytes : List Byte)
  | arrivalOnPortC (bytes : List Byte)
  | dormantArrival (e : End) (bytes : List Byte)
  | settleExpiry (e : End)
  | greetExpiry (e : End)
  | answerLimitReached (e : End)
  | silenceLimitReached (e : End)
  | fadeExpiry (e : End)
  | rouseExpiry (e : End)
  | rouseBurstReached (e : End)
  | noticeTimerExpiry
  | transmissionStart (p : Port)
  | transmissionCompletion (p : Port)
  | blockFoldCompletion
  | finishCompletion
  | stagingTimerExpiry
  | graceTimerExpiry
  | setIdentity (r : Request)
  | sleep (r : Request)
  | releaseWake (r : Request)
  | restart (r : Request)
  | readState (r : Request)
  | readStateClear (r : Request)
  | readRoster (r : Request)
  | readCapture (r : Request)
  | readOvertaken (r : Request)
  | ruleRead (r : Request)
  | loadBeginFresh (r : Request)
  | loadBeginExtend (r : Request)
  | loadRecords (r : Request)
  | confirm (r : Request)
  | discard (r : Request)
  | enact (r : Request)
  | ruleWrite (r : Request)
  | hold (r : Request)
  | release (r : Request)
  | setTiming (r : Request)
  | setClass (r : Request)
  | unknownCommand (code : Byte) (r : Request)
  | wakeInNegation
  deriving DecidableEq, Repr

end Sys2Proof
end

