-- ==== Sys2Proof/Config.lean ====
section
/-! DEFINITION. What the spec leaves open and the machine goes on with: the free values. Nothing in Lean can evaluate one.
The fixed numbers of the part (pool, limits, defaults) stand with the operations that use them. -/

namespace Sys2Proof

/-- The order the spec leaves open at R79 ("neither waits for the other") and R81 ("need no order among them"): whether, at the
n-th such moment, the copies of the arriving control frame are offered before its request is taken or its receipt makes the part emit.
Applied to the counter `State.free` (log 8). -/
opaque Config.freeOrder : Nat → Bool

/-- Which of the part's own moments that are due together is taken first (R21: "the part may take them in either order"; R161: "The
arbiters of the three ports are independent"). Applied to the counter `State.free`; the value is taken modulo their number (log 25). -/
opaque Config.freeMoment : Nat → Nat

end Sys2Proof
end

