-- ==== Sys2Proof/Machine/Types.lean ====
section
/-! DEFINITION. The plain data each block of the VB240 owns (00 section 3), block by block. -/

namespace Sys2Proof.Machine

/-! ## Frames -/

/-- The frame kinds (R2). -/
inductive Kind where
  | process | message | bulk | mgmtReq | mgmtRsp | notice | greet | rouse
  deriving DecidableEq, Repr

/-- A frame that has passed the checks of R9: its header fields (R1) and its payload. The payload length field is the length of
`payload`, and the frame check word is computed when it is needed (R10). In a queue entry `hop` is the arrival value (R5, R154). -/
structure Frame where
  kind : Kind
  hop : Byte
  generation : Half
  dstPos : Byte
  dstDev : Byte
  srcPos : Byte
  srcDev : Byte
  srcId : Word
  tag : Half
  payload : List Byte
  deriving DecidableEq, Repr

/-- Where a frame came in: a port, or the part itself (R15). -/
inductive Ingress where
  | internal
  | port (p : Port)
  deriving DecidableEq, Repr

/-- The discard reasons (01 section 1.9). -/
inductive Reason where
  | frameFault | staleGeneration | stranded | foreignLink | noPath | hopExhausted | ruleDiscard | queueFull
  | poolExhausted | slotExhausted | overtakenReroute | flushedAtEnact | linkLost
  deriving DecidableEq, Repr

/-- One discard: the fields of R15 but for the clock. -/
structure Discard where
  reason : Reason
  ingress : Ingress
  kind : Byte
  source : Word
  deriving DecidableEq, Repr

/-- The discard tallies, one 16-bit count for each reason (R14). -/
structure Tallies where
  frameFault : Half
  staleGeneration : Half
  stranded : Half
  foreignLink : Half
  noPath : Half
  hopExhausted : Half
  ruleDiscard : Half
  queueFull : Half
  poolExhausted : Half
  slotExhausted : Half
  overtakenReroute : Half
  flushedAtEnact : Half
  linkLost : Half
  deriving DecidableEq, Repr

/-- The last discard record when it is not empty (R15). -/
structure DiscardRecord where
  discard : Discard
  clock : Word
  deriving DecidableEq, Repr

/-- What discards leave behind (R14, R15). -/
structure DiscardLog where
  tallies : Tallies
  last : Option DiscardRecord
  deriving DecidableEq, Repr

/-! ## Input lines -/

/-- The levels of the input lines; true is asserted (R20, R55). -/
structure Lines where
  presenceA : Bool
  presenceB : Bool
  wakeIn : Bool
  deriving DecidableEq, Repr

/-- The power states (R47). -/
inductive Power where
  | active | dormant
  deriving DecidableEq, Repr

/-! ## Coupler link monitors -/

/-- The link states (R19). -/
inductive LinkState where
  | dark | settling | greeting | mute | joined | fading | listen
  deriving DecidableEq, Repr

/-- The loss causes (R19); `noCause` is none. -/
inductive LossCause where
  | noCause | changed | silent | uncoupled
  deriving DecidableEq, Repr

/-- A timer: stopped, or running with the microseconds to its expiry (R21). -/
abbrev Timer := Option Nat

/-- The neighbour record (R19). The end code is kept as received (R26). -/
structure Neighbour where
  identity : Word
  endCode : Byte
  generation : Half
  joinedAt : Word
  deriving DecidableEq, Repr

/-- The candidate record (R19). -/
structure Candidate where
  identity : Word
  endCode : Byte
  deriving DecidableEq, Repr

/-- The last-change capture (R19, R24). -/
structure LastChange where
  clock : Word
  cause : LossCause
  deriving DecidableEq, Repr

/-- The link-control slot of a coupler port: a pending GREET and a pending ROUSE (R27). -/
structure LinkSlot where
  greet : Bool
  rouse : Bool
  deriving DecidableEq, Repr

/-- A coupler link monitor (R19), with the link-control slot of its port (R27). -/
structure Clm where
  link : LinkState
  settle : Timer
  greet : Timer
  fade : Timer
  rouse : Timer
  answerCount : Nat
  silenceCount : Nat
  rouseCount : Nat
  greetHeard : Bool
  neighbour : Option Neighbour
  candidate : Option Candidate
  lastChange : LastChange
  slot : LinkSlot
  deriving DecidableEq, Repr

/-! ## Rouse filter -/

/-- An occupied rouse capture (R53). -/
structure RouseCapture where
  bytes : List Byte
  length : Nat
  arrival : End
  clock : Word
  deriving DecidableEq, Repr

/-- The rouse filter: the capture and the wake flag (R53, R54). -/
structure RouseFilter where
  capture : Option RouseCapture
  wakeFlag : Bool
  deriving DecidableEq, Repr

/-! ## Roster unit and notice generator -/

/-- Which end faces the lead (R59). -/
inductive Orientation where
  | normal | reversed
  deriving DecidableEq, Repr

/-- A roster record (R59). -/
structure Record where
  identity : Word
  position : Nat
  orientation : Orientation
  master : Bool
  deriving DecidableEq, Repr

/-- The active roster with its generation and fold context (R60). -/
structure ActiveRoster where
  records : List Record
  generation : Half
  context : Word
  deriving DecidableEq, Repr

/-- A prior roster with the prior generation (R61). -/
structure PriorRoster where
  records : List Record
  generation : Half
  deriving DecidableEq, Repr

/-- The standing of an end (R64). -/
inductive Standing where
  | matched | foreign | missing | vacant
  deriving DecidableEq, Repr

/-- The authority state (R70). -/
inductive Authority where
  | lone | governed | orphaned
  deriving DecidableEq, Repr

/-- The roster unit. The cut map is a set, kept as an increasing list (R68). -/
structure RosterUnit where
  active : ActiveRoster
  prior : Option PriorRoster
  grace : Timer
  standingA : Standing
  standingB : Standing
  cutMap : List Nat
  authority : Authority
  deriving DecidableEq, Repr

/-- The notice generator (R126). -/
structure NoticeGenerator where
  settled : Bool
  timer : Timer
  deriving DecidableEq, Repr

/-! ## Staging unit and check unit -/

/-- The staging mode (R84). -/
inductive Mode where
  | fresh | extend
  deriving DecidableEq, Repr

/-- What a staging holds in every state but EMPTY (R84). The next position is one more than the records held. -/
structure StagingBody where
  owner : Word
  mode : Mode
  records : List Record
  context : Word
  deriving DecidableEq, Repr

/-- What CONFIRMING holds in addition (R84): the values of the CONFIRM and what its response is built from. -/
structure ConfirmTicket where
  generation : Half
  count : Nat
  expected : Word
  requestTag : Half
  seqTag : Half
  port : Port
  deriving DecidableEq, Repr

/-- The confirmed record (R84, R97). -/
structure ConfirmedRecord where
  generation : Half
  count : Nat
  check : Word
  context : Word
  owner : Word
  deriving DecidableEq, Repr

/-- The staging state with what it holds (R84). -/
inductive Staging where
  | empty
  | filling (b : StagingBody)
  | confirming (b : StagingBody) (t : ConfirmTicket)
  | confirmed (b : StagingBody) (r : ConfirmedRecord)
  deriving DecidableEq, Repr

/-- The check unit: IDLE, or FOLDING a job of one of two kinds from a context over input bytes (R85). -/
inductive Job where
  | idle
  | blockFold (context : Word) (input : List Byte)
  | finish (context : Word) (trailer : List Byte)
  deriving DecidableEq, Repr

/-- The staging unit with the check unit (R84, R85, R102). -/
structure StagingUnit where
  staging : Staging
  job : Job
  timer : Timer
  deriving DecidableEq, Repr

/-! ## Class matcher -/

/-- The classes of data frames. Class C0 belongs to control frames and no rule, policy or hold names it (R137, R150, R167). -/
inductive DataClass where
  | c1 | c2 | c3
  deriving DecidableEq, Repr

/-- The traffic classes (00 section 6). -/
inductive Cls where
  | c0 | c1 | c2 | c3
  deriving DecidableEq, Repr

/-- A class rule (R137). Mask flag i covers frame byte i; `values` are the 32 match values. -/
structure Rule where
  enabled : Bool
  kindProcess : Bool
  kindMessage : Bool
  kindBulk : Bool
  portA : Bool
  portB : Bool
  portC : Bool
  minLength : Nat
  mask : BitVec 32
  values : List Byte
  cls : DataClass
  cyclic : Bool
  localCopy : Bool
  discard : Bool
  deriving DecidableEq, Repr

/-- A class changeover policy (R150). -/
inductive Policy where
  | flush | reroute
  deriving DecidableEq, Repr

/-- The class matcher: sixteen rules and the policies of C1 to C3 (R137, R150). -/
structure ClassMatcher where
  rules : List Rule
  policy1 : Policy
  policy2 : Policy
  policy3 : Policy
  deriving DecidableEq, Repr

/-! ## Egress queue manager -/

/-- A cyclic key: source car identity and publication number (R142). -/
structure CyclicKey where
  identity : Word
  publication : Half
  deriving DecidableEq, Repr

/-- A queue entry (R154). Its class is the class of the queue that holds it, and its cyclic slot is its key (R157). -/
structure Entry where
  frame : Frame
  ingress : Ingress
  key : Option CyclicKey
  localCopy : Bool
  sleepResponse : Bool
  deriving DecidableEq, Repr

/-- What a port is sending: a queued frame with its class, or a GREET or ROUSE of the link-control slot (R161, R163). -/
inductive TxItem where
  | queued (c : Cls) (e : Entry)
  | greet
  | rouse
  deriving DecidableEq, Repr

/-- A transmission: the item and the bytes on the line, fixed at its start with the frame check word (R10, R163). -/
structure Tx where
  item : TxItem
  bytes : List Byte
  deriving DecidableEq, Repr

/-- The egress side of one port: four queues, front first, and the transmission (R154, R161). -/
structure PortQueues where
  c0 : List Entry
  c1 : List Entry
  c2 : List Entry
  c3 : List Entry
  tx : Option Tx
  deriving DecidableEq, Repr

/-- An entry of the overtaken report (R160). -/
structure OvertakenEntry where
  key : CyclicKey
  port : Port
  count : Nat
  deriving DecidableEq, Repr

/-- A set of classes drawn from C1, C2 and C3 (R167). -/
structure ClassSet where
  c1 : Bool
  c2 : Bool
  c3 : Bool
  deriving DecidableEq, Repr

/-- The egress queue manager (09). -/
structure Eqm where
  freeCells : Nat
  portA : PortQueues
  portB : PortQueues
  portC : PortQueues
  overtaken : List OvertakenEntry
  overflow : Bool
  hold : ClassSet
  deriving DecidableEq, Repr

/-! ## Command unit -/

/-- The timing parameters, in the units of R188. -/
structure Timing where
  settleTime : Nat
  fadeTime : Nat
  greetPeriod : Nat
  silenceLimit : Nat
  answerLimit : Nat
  rouseInterval : Nat
  rouseBurst : Nat
  noticeInterval : Nat
  gracePeriod : Nat
  stagingTimeout : Nat
  deriving DecidableEq, Repr

/-- The command unit (R177, R188, R176, R48). The discard tallies and the last discard record stand in `DiscardLog`. -/
structure CommandUnit where
  identity : Word
  loaded : Bool
  timing : Timing
  refusals : Half
  sleepPending : Bool
  deriving DecidableEq, Repr

end Sys2Proof.Machine
end

