-- ==== Sys2Proof/Machine/PowerOn.lean ====
section
/-! DEFINITION. The power-on values of every block, each from the reset table of its chapter. -/

namespace Sys2Proof.Machine

/-- R16: every tally is 0. -/
def Tallies.zero : Tallies :=
  { frameFault := 0, staleGeneration := 0, stranded := 0, foreignLink := 0, noPath := 0, hopExhausted := 0, ruleDiscard := 0,
    queueFull := 0, poolExhausted := 0, slotExhausted := 0, overtakenReroute := 0, flushedAtEnact := 0, linkLost := 0 }

/-- R16: tallies 0 and the last discard record empty. -/
def DiscardLog.powerOn : DiscardLog := { tallies := .zero, last := none }

/-- R45: DARK, timers stopped, counts 0, flag clear, records absent, capture clock 0 and cause none, slot empty. -/
def Clm.powerOn : Clm :=
  { link := .dark, settle := none, greet := none, fade := none, rouse := none, answerCount := 0, silenceCount := 0,
    rouseCount := 0, greetHeard := false, neighbour := none, candidate := none,
    lastChange := { clock := 0, cause := .noCause }, slot := { greet := false, rouse := false } }

/-- R58: capture empty, wake flag clear. -/
def RouseFilter.powerOn : RouseFilter := { capture := none, wakeFlag := false }

/-- R60, R82: no records, generation 0, and the fold context of an empty roster. -/
def ActiveRoster.empty : ActiveRoster := { records := [], generation := 0, context := 0xFFFFFFFF }

/-- R82. -/
def RosterUnit.powerOn : RosterUnit :=
  { active := .empty, prior := none, grace := none, standingA := .vacant, standingB := .vacant, cutMap := [], authority := .lone }

/-- R126: the settled flag is set and the notice timer stopped. -/
def NoticeGenerator.powerOn : NoticeGenerator := { settled := true, timer := none }

/-- R105: EMPTY, check unit IDLE, staging timer stopped. -/
def StagingUnit.powerOn : StagingUnit := { staging := .empty, job := .idle, timer := none }

/-- R138: the reset rule. -/
def Rule.reset : Rule :=
  { enabled := false, kindProcess := false, kindMessage := false, kindBulk := false, portA := false, portB := false,
    portC := false, minLength := 20, mask := 0, values := List.replicate 32 0, cls := .c1, cyclic := false,
    localCopy := false, discard := false }

/-- R138, R150: sixteen reset rules; C1 FLUSH, C2 REROUTE, C3 FLUSH. -/
def ClassMatcher.powerOn : ClassMatcher :=
  { rules := List.replicate 16 .reset, policy1 := .flush, policy2 := .reroute, policy3 := .flush }

/-- R169: a port with empty queues that sends nothing. -/
def PortQueues.empty : PortQueues := { c0 := [], c1 := [], c2 := [], c3 := [], tx := none }

/-- The empty hold set. -/
def ClassSet.empty : ClassSet := { c1 := false, c2 := false, c3 := false }

/-- R169. -/
def Eqm.powerOn : Eqm :=
  { freeCells := 768, portA := .empty, portB := .empty, portC := .empty, overtaken := [], overflow := false, hold := .empty }

/-- The defaults of R188. -/
def Timing.default : Timing :=
  { settleTime := 200, fadeTime := 60, greetPeriod := 20, silenceLimit := 5, answerLimit := 25, rouseInterval := 100,
    rouseBurst := 20, noticeInterval := 250, gracePeriod := 2000, stagingTimeout := 5000 }

/-- R190. -/
def CommandUnit.powerOn : CommandUnit :=
  { identity := 0, loaded := false, timing := .default, refusals := 0, sleepPending := false }

end Sys2Proof.Machine
end

