-- ==== Sys2Proof/Machine/State.lean ====
section
/-! DEFINITION. The state of the part: the blocks of 00 section 3, the input lines, the clock, and the queue of commands. -/

namespace Sys2Proof.Machine

/-- The state. `free` is the model's own counter for the free values of Config (log 8), `pending` the commands that wait, first
in, first out. Everything else is state the spec names (INVENTORY.md). -/
structure State where
  lines : Lines
  power : Power
  clock : Word
  clmA : Clm
  clmB : Clm
  rouse : RouseFilter
  ru : RosterUnit
  ng : NoticeGenerator
  su : StagingUnit
  cm : ClassMatcher
  eqm : Eqm
  discards : DiscardLog
  cu : CommandUnit
  free : Nat
  pending : List Instr
  deriving DecidableEq, Repr

/-- The faults of the machine. There are none: the spec names nothing that stops the part, and every loss it describes is a
counted discard or a refused command, with a next state. -/
inductive Fault where
  deriving DecidableEq, Repr

/-- The refusals of the model. -/
inductive Refusal where
  /-- A command without a meaning yet, named by its row's mnemonic: raised by an arm of `exec` alone; safe. No arm raises it. -/
  | notModelled (mnemonic : String)
  deriving DecidableEq, Repr

/-- The part right after power-on reset: every block at its power-on values (R16, R45, R58, R82, R105, R126, R138, R150, R169,
R190), ACTIVE (R47), clock 0 (R23). The input lines are taken as negated (DESIGN CHOICE, log 7). -/
def State.reset : State :=
  { lines := { presenceA := false, presenceB := false, wakeIn := false }, power := .active, clock := 0, clmA := .powerOn,
    clmB := .powerOn, rouse := .powerOn, ru := .powerOn, ng := .powerOn, su := .powerOn, cm := .powerOn, eqm := .powerOn,
    discards := .powerOn, cu := .powerOn, free := 0, pending := [] }

end Sys2Proof.Machine
end

