-- ==== Sys2Proof/Machine/Bytes.lean ====
section
/-! DEFINITION. Bytes and codes: byte order, the check function, the frame as bytes, the code tables of 01 section 1.10. -/

namespace Sys2Proof.Machine

/-! ## Byte order: most significant byte first (00 section 6) -/

/-- The byte at an offset; 0 past the end. -/
def byteAt (l : List Byte) (i : Nat) : Byte := l.getD i 0

/-- The 16-bit value at an offset. -/
def halfAt (l : List Byte) (i : Nat) : Half := byteAt l i ++ byteAt l (i + 1)

/-- The 32-bit value at an offset. -/
def wordAt (l : List Byte) (i : Nat) : Word := halfAt l i ++ halfAt l (i + 2)

/-- A 16-bit value as bytes. -/
def Half.bytes (h : Half) : List Byte := [h.extractLsb' 8 8, h.extractLsb' 0 8]

/-- A 32-bit value as bytes. -/
def Word.bytes (w : Word) : List Byte :=
  [w.extractLsb' 24 8, w.extractLsb' 16 8, w.extractLsb' 8 8, w.extractLsb' 0 8]

/-- A count as one byte. -/
def natByte (n : Nat) : Byte := BitVec.ofNat 8 n

/-- A count as two bytes. -/
def natHalf (n : Nat) : List Byte := Half.bytes (BitVec.ofNat 16 n)

/-- A flag as one byte: 01h or 00h. -/
def flagByte (b : Bool) : Byte := if b then 0x01 else 0x00

/-! ## The check function (R8) -/

/-- One shift of the check register with generator polynomial 04C11DB7h. -/
def crcShift (reg : Word) : Word := if reg.msb then (reg <<< 1) ^^^ 0x04C11DB7#32 else reg <<< 1

/-- One input byte, most significant bit first. -/
def crcByte (reg : Word) (b : Byte) : Word :=
  crcShift (crcShift (crcShift (crcShift (crcShift (crcShift (crcShift (crcShift (reg ^^^ (b.setWidth 32 <<< 24)))))))))

/-- The register after folding bytes onto a context: fold contexts continue (R8). -/
def crcFold (context : Word) (bytes : List Byte) : Word := bytes.foldl crcByte context

/-- The check word of a byte sequence: the register starts at FFFFFFFFh, with no final inversion (R8). -/
def checkWord (bytes : List Byte) : Word := crcFold 0xFFFFFFFF bytes

/-! ## Frame kinds (R2) -/

/-- The code of a kind. -/
def Kind.code : Kind → Byte
  | .process => 0x01 | .message => 0x02 | .bulk => 0x03 | .mgmtReq => 0x08 | .mgmtRsp => 0x09 | .notice => 0x0A
  | .greet => 0x0C | .rouse => 0x0D

/-- The kind of a code; none for any other value. -/
def kindOfCode (b : Byte) : Option Kind :=
  if b = 0x01 then some .process else if b = 0x02 then some .message else if b = 0x03 then some .bulk
  else if b = 0x08 then some .mgmtReq else if b = 0x09 then some .mgmtRsp else if b = 0x0A then some .notice
  else if b = 0x0C then some .greet else if b = 0x0D then some .rouse else none

/-- The data kinds. -/
def Kind.isData : Kind → Bool
  | .process | .message | .bulk => true
  | .mgmtReq | .mgmtRsp | .notice | .greet | .rouse => false

/-- The fixed part of the body of a kind (R13); 0 where R13 names none. -/
def Kind.fixedBody : Kind → Nat
  | .greet => 12 | .notice => 28 | .mgmtReq => 8 | .mgmtRsp => 12
  | .process | .message | .bulk | .rouse => 0

/-! ## Frames as bytes (R1, R18) -/

/-- The 16 header bytes. -/
def Frame.header (f : Frame) : List Byte :=
  [f.kind.code, f.hop] ++ Half.bytes f.generation ++ [f.dstPos, f.dstDev, f.srcPos, f.srcDev] ++ Word.bytes f.srcId
    ++ Half.bytes f.tag ++ natHalf f.payload.length

/-- Header and payload: what the frame check word is computed over. -/
def Frame.body (f : Frame) : List Byte := f.header ++ f.payload

/-- The whole frame, with the frame check word computed anew (R10). -/
def Frame.wire (f : Frame) : List Byte := f.body ++ Word.bytes (checkWord f.body)

/-- The frame length: the payload length plus 20 (R1). -/
def Frame.length (f : Frame) : Nat := f.payload.length + 20

/-- Tests 1 and 2 of R9: a received length of 20 to 1,020, and a payload length field that agrees with it. -/
def lengthsAgree (bytes : List Byte) : Bool :=
  20 ≤ bytes.length && bytes.length ≤ 1020 && (halfAt bytes 14).toNat + 20 == bytes.length

/-- Test 3 of R9: the frame check word over header and payload equals the last four bytes. -/
def checkAgrees (bytes : List Byte) : Bool :=
  checkWord (bytes.take (bytes.length - 4)) == wordAt bytes (bytes.length - 4)

/-- The four tests of R9, in order, and the frame they let through. -/
def parseFrame (bytes : List Byte) : Option Frame :=
  if !lengthsAgree bytes then none
  else if !checkAgrees bytes then none
  else match kindOfCode (byteAt bytes 0) with
    | none => none
    | some k => some
        { kind := k, hop := byteAt bytes 1, generation := halfAt bytes 2, dstPos := byteAt bytes 4, dstDev := byteAt bytes 5,
          srcPos := byteAt bytes 6, srcDev := byteAt bytes 7, srcId := wordAt bytes 8, tag := halfAt bytes 12,
          payload := (bytes.take (bytes.length - 4)).drop 16 }

/-! ## Codes shared by bodies and read results (01 section 1.10) -/

/-- End codes. -/
def End.code : End → Byte
  | .a => 0x01 | .b => 0x02

/-- Port codes. -/
def Port.code : Port → Byte
  | .a => 0x01 | .b => 0x02 | .c => 0x03

/-- Port codes with 00h for internal. -/
def Ingress.code : Ingress → Byte
  | .internal => 0x00 | .port p => Port.code p

/-- Link state codes. -/
def LinkState.code : LinkState → Byte
  | .dark => 0x01 | .settling => 0x02 | .greeting => 0x03 | .mute => 0x04 | .joined => 0x05 | .fading => 0x06
  | .listen => 0x07

/-- Standing codes. -/
def Standing.code : Standing → Byte
  | .matched => 0x01 | .foreign => 0x02 | .missing => 0x03 | .vacant => 0x04

/-- Authority codes. -/
def Authority.code : Authority → Byte
  | .lone => 0x01 | .governed => 0x02 | .orphaned => 0x03

/-- Loss cause codes. -/
def LossCause.code : LossCause → Byte
  | .noCause => 0x00 | .changed => 0x01 | .silent => 0x02 | .uncoupled => 0x03

/-- Power state codes. -/
def Power.code : Power → Byte
  | .active => 0x01 | .dormant => 0x02

/-- Staging state codes. -/
def Staging.code : Staging → Byte
  | .empty => 0x01 | .filling _ => 0x02 | .confirming _ _ => 0x03 | .confirmed _ _ => 0x04

/-- Staging mode codes. -/
def Mode.code : Mode → Byte
  | .fresh => 0x01 | .extend => 0x02

/-- Discard reason codes. -/
def Reason.code : Reason → Byte
  | .frameFault => 0x01 | .staleGeneration => 0x02 | .stranded => 0x03 | .foreignLink => 0x04 | .noPath => 0x05
  | .hopExhausted => 0x06 | .ruleDiscard => 0x07 | .queueFull => 0x08 | .poolExhausted => 0x09 | .slotExhausted => 0x0A
  | .overtakenReroute => 0x0B | .flushedAtEnact => 0x0C | .linkLost => 0x0D

/-- Class codes of C1 to C3. -/
def DataClass.code : DataClass → Byte
  | .c1 => 0x01 | .c2 => 0x02 | .c3 => 0x03

/-- Changeover policy codes. -/
def Policy.code : Policy → Byte
  | .flush => 0x01 | .reroute => 0x02

/-! ## Commands and outcomes (01 section 1.10) -/

/-- The management commands. -/
inductive Command where
  | setIdentity | sleep | releaseWake | restart | readState | readRoster | readCapture | readOvertaken | ruleRead | loadBegin
  | loadRecords | confirm | discard | enact | ruleWrite | hold | release | setTiming | setClass
  deriving DecidableEq, Repr

/-- Command codes. -/
def Command.code : Command → Byte
  | .setIdentity => 0x01 | .sleep => 0x02 | .releaseWake => 0x03 | .restart => 0x04 | .readState => 0x10
  | .readRoster => 0x11 | .readCapture => 0x12 | .readOvertaken => 0x13 | .ruleRead => 0x14 | .loadBegin => 0x20
  | .loadRecords => 0x21 | .confirm => 0x22 | .discard => 0x23 | .enact => 0x24 | .ruleWrite => 0x30 | .hold => 0x31
  | .release => 0x32 | .setTiming => 0x33 | .setClass => 0x34

/-- The command of a code; none where section 1.10 defines none. -/
def commandOfCode (b : Byte) : Option Command :=
  if b = 0x01 then some .setIdentity else if b = 0x02 then some .sleep else if b = 0x03 then some .releaseWake
  else if b = 0x04 then some .restart else if b = 0x10 then some .readState else if b = 0x11 then some .readRoster
  else if b = 0x12 then some .readCapture else if b = 0x13 then some .readOvertaken else if b = 0x14 then some .ruleRead
  else if b = 0x20 then some .loadBegin else if b = 0x21 then some .loadRecords else if b = 0x22 then some .confirm
  else if b = 0x23 then some .discard else if b = 0x24 then some .enact else if b = 0x30 then some .ruleWrite
  else if b = 0x31 then some .hold else if b = 0x32 then some .release else if b = 0x33 then some .setTiming
  else if b = 0x34 then some .setClass else none

/-- The outcomes of a request (10 section 10.4). -/
inductive ReplyCode where
  | done | busy | notAuthorised | portNotPermitted | identitySet | identityUnset | stagingOwned | stagingState | badRecord
  | rosterFull | countMismatch | generationInvalid | masterCount | noSelf | masterAbsent | checkMismatch | notConfirmed
  | generationMismatch | noActive | badParameter | unknownCommand | targetNotPermitted
  deriving DecidableEq, Repr

/-- Outcome codes. -/
def ReplyCode.code : ReplyCode → Byte
  | .done => 0x00 | .busy => 0x01 | .notAuthorised => 0x10 | .portNotPermitted => 0x11 | .identitySet => 0x12
  | .identityUnset => 0x13 | .stagingOwned => 0x14 | .stagingState => 0x15 | .badRecord => 0x16 | .rosterFull => 0x17
  | .countMismatch => 0x18 | .generationInvalid => 0x19 | .masterCount => 0x1A | .noSelf => 0x1B | .masterAbsent => 0x1C
  | .checkMismatch => 0x1D | .notConfirmed => 0x1E | .generationMismatch => 0x1F | .noActive => 0x20
  | .badParameter => 0x21 | .unknownCommand => 0x22 | .targetNotPermitted => 0x23

/-- Target ALL (R4). -/
def targetAll : Word := 0xFFFFFFFF

end Sys2Proof.Machine
end

