-- ==== Sys2Proof/Machine/Operands.lean ====
section
/-! DEFINITION. Operand forms: the sender of a request, roster record images, rule images, class sets and timing parameters as
they stand in parameter fields and result data (01 section 1.10, 10). -/

namespace Sys2Proof.Machine

/-- The sender of a request (R171): 0 on port C, and the source car identity of the header on ports A and B. -/
def Request.sender (r : Request) : Word :=
  match r.port with
  | .c => 0
  | .a | .b => r.source

/-- A single car's identity: 1 to FFFFFFFEh (R4). -/
def validIdentity (w : Word) : Bool := w != 0 && w != 0xFFFFFFFF

/-! ## Roster record image (6 bytes) -/

/-- The attributes byte: bit 0 orientation, bit 1 master mark. -/
def Record.attributes (r : Record) : Byte :=
  (if r.orientation = .reversed then 0x01 else 0x00) ||| (if r.master then 0x02 else 0x00)

/-- The image of a record. -/
def Record.image (r : Record) : List Byte := Word.bytes r.identity ++ [natByte r.position, r.attributes]

/-- The images of a list of records, in order: what the check unit folds (R86). -/
def recordImages (rs : List Record) : List Byte := (rs.map Record.image).flatten

/-- The record at an offset of a parameter field; its reserved attribute bits are tested apart (R94). -/
def recordAt (l : List Byte) (i : Nat) : Record :=
  { identity := wordAt l i, position := (byteAt l (i + 4)).toNat,
    orientation := if (byteAt l (i + 5)).getLsbD 0 then .reversed else .normal, master := (byteAt l (i + 5)).getLsbD 1 }

/-- Bits 2 to 7 of the attributes byte of the image at an offset are 0 (R94). -/
def reservedClear (l : List Byte) (i : Nat) : Bool := byteAt l (i + 5) &&& 0xFC#8 == 0

/-- The confirmation trailer (R86). -/
def trailer (generation : Half) (count : Nat) : List Byte := Half.bytes generation ++ [natByte count, 0xA5]

/-- The check word of a roster (R86). -/
def rosterCheckWord (rs : List Record) (generation : Half) (count : Nat) : Word :=
  checkWord (recordImages rs ++ trailer generation count)

/-! ## Rule image (42 bytes) -/

/-- The image of a rule; reserved bits are 0 (R17, R147). -/
def Rule.image (r : Rule) : List Byte :=
  [flagByte r.enabled,
   (if r.kindProcess then 0x01#8 else 0) ||| (if r.kindMessage then 0x02#8 else 0) ||| (if r.kindBulk then 0x04#8 else 0),
   (if r.portA then 0x01#8 else 0) ||| (if r.portB then 0x02#8 else 0) ||| (if r.portC then 0x04#8 else 0),
   DataClass.code r.cls ||| (if r.cyclic then 0x04#8 else 0) ||| (if r.localCopy then 0x08#8 else 0)
     ||| (if r.discard then 0x10#8 else 0)]
  ++ natHalf r.minLength ++ Word.bytes r.mask ++ r.values

/-- The class field of an outcome byte: 1, 2 or 3. -/
def dataClassOfCode (b : Byte) : Option DataClass :=
  if b = 0x01 then some .c1 else if b = 0x02 then some .c2 else if b = 0x03 then some .c3 else none

/-- A changeover policy code. -/
def policyOfCode (b : Byte) : Option Policy :=
  if b = 0x01 then some .flush else if b = 0x02 then some .reroute else none

/-- The rule of an image, refused when the class is 0 or the minimum length is outside 20 to 1,020 (R17, R147). -/
def ruleOfImage (l : List Byte) : Option Rule :=
  let o := byteAt l 3
  let m := (halfAt l 4).toNat
  match dataClassOfCode (o &&& 0x03#8) with
  | none => none
  | some c =>
    if m < 20 || 1020 < m then none
    else some
      { enabled := (byteAt l 0).getLsbD 0, kindProcess := (byteAt l 1).getLsbD 0, kindMessage := (byteAt l 1).getLsbD 1,
        kindBulk := (byteAt l 1).getLsbD 2, portA := (byteAt l 2).getLsbD 0, portB := (byteAt l 2).getLsbD 1,
        portC := (byteAt l 2).getLsbD 2, minLength := m, mask := wordAt l 6, values := (l.drop 10).take 32, cls := c,
        cyclic := o.getLsbD 2, localCopy := o.getLsbD 3, discard := o.getLsbD 4 }

/-! ## Class sets (R183, R187) -/

/-- Bit 1 for C1, bit 2 for C2, bit 3 for C3. -/
def ClassSet.byte (s : ClassSet) : Byte :=
  (if s.c1 then 0x02#8 else 0) ||| (if s.c2 then 0x04#8 else 0) ||| (if s.c3 then 0x08#8 else 0)

/-- The class set of a byte; none when bit 0 or any of bits 4 to 7 is set (R187). -/
def classSetOfByte (b : Byte) : Option ClassSet :=
  if b &&& 0xF1#8 = 0 then some { c1 := b.getLsbD 1, c2 := b.getLsbD 2, c3 := b.getLsbD 3 } else none

/-- The classes of either set. -/
def ClassSet.union (s t : ClassSet) : ClassSet := { c1 := s.c1 || t.c1, c2 := s.c2 || t.c2, c3 := s.c3 || t.c3 }

/-- The classes of the first set that are not in the second. -/
def ClassSet.diff (s t : ClassSet) : ClassSet := { c1 := s.c1 && !t.c1, c2 := s.c2 && !t.c2, c3 := s.c3 && !t.c3 }

/-- Whether a class is in the set; C0 never is (R167). -/
def ClassSet.mem (s : ClassSet) : Cls → Bool
  | .c0 => false | .c1 => s.c1 | .c2 => s.c2 | .c3 => s.c3

/-! ## Timing parameters (R188) -/

/-- The timing parameters by name. -/
inductive Parameter where
  | settleTime | fadeTime | greetPeriod | silenceLimit | answerLimit | rouseInterval | rouseBurst | noticeInterval
  | gracePeriod | stagingTimeout
  deriving DecidableEq, Repr

/-- Parameter codes. -/
def parameterOfCode (b : Byte) : Option Parameter :=
  if b = 0x01 then some .settleTime else if b = 0x02 then some .fadeTime else if b = 0x03 then some .greetPeriod
  else if b = 0x04 then some .silenceLimit else if b = 0x05 then some .answerLimit else if b = 0x06 then some .rouseInterval
  else if b = 0x07 then some .rouseBurst else if b = 0x08 then some .noticeInterval else if b = 0x09 then some .gracePeriod
  else if b = 0x0A then some .stagingTimeout else none

/-- The least value of each range. -/
def Parameter.low : Parameter → Nat
  | .settleTime => 10 | .fadeTime => 5 | .greetPeriod => 5 | .silenceLimit => 2 | .answerLimit => 5 | .rouseInterval => 20
  | .rouseBurst => 1 | .noticeInterval => 50 | .gracePeriod => 100 | .stagingTimeout => 500

/-- The greatest value of each range. -/
def Parameter.high : Parameter → Nat
  | .settleTime => 2000 | .fadeTime => 500 | .greetPeriod => 200 | .silenceLimit => 15 | .answerLimit => 100
  | .rouseInterval => 1000 | .rouseBurst => 255 | .noticeInterval => 2000 | .gracePeriod => 10000
  | .stagingTimeout => 60000

/-- The value of a parameter. -/
def Timing.get (t : Timing) : Parameter → Nat
  | .settleTime => t.settleTime | .fadeTime => t.fadeTime | .greetPeriod => t.greetPeriod
  | .silenceLimit => t.silenceLimit | .answerLimit => t.answerLimit | .rouseInterval => t.rouseInterval
  | .rouseBurst => t.rouseBurst | .noticeInterval => t.noticeInterval | .gracePeriod => t.gracePeriod
  | .stagingTimeout => t.stagingTimeout

/-- One parameter set to a value. -/
def Timing.set (t : Timing) (v : Nat) : Parameter → Timing
  | .settleTime => { t with settleTime := v } | .fadeTime => { t with fadeTime := v }
  | .greetPeriod => { t with greetPeriod := v } | .silenceLimit => { t with silenceLimit := v }
  | .answerLimit => { t with answerLimit := v } | .rouseInterval => { t with rouseInterval := v }
  | .rouseBurst => { t with rouseBurst := v } | .noticeInterval => { t with noticeInterval := v }
  | .gracePeriod => { t with gracePeriod := v } | .stagingTimeout => { t with stagingTimeout := v }

/-- A timer started for a duration in milliseconds. -/
def startMs (ms : Nat) : Timer := some (ms * 1000)

end Sys2Proof.Machine
end

