-- ==== Sys2Proof/Machine/Flags.lean ====
section
/-! DEFINITION. The judgements the part makes from its state and never stores apart: own record and facing, expectation, standing,
own adjacencies, authority, settledness (04), classes held in effect (R168), and the identities they read. -/

namespace Sys2Proof.Machine

/-- The coupler port of an end (00 section 6). -/
def End.toPort : End → Port
  | .a => .a | .b => .b

/-- The other end of a car. -/
def End.other : End → End
  | .a => .b | .b => .a

/-- The end a coupler port serves; none for port C. -/
def Port.end? : Port → Option End
  | .a => some .a | .b => some .b | .c => none

/-- The own car identity in the fields of frames and responses: 0 while none is loaded (R6, R7, R174). -/
def CommandUnit.ownIdentity (cu : CommandUnit) : Word := if cu.loaded then cu.identity else 0

/-- Whether an identity field names this car: while none is loaded, none does (R79). -/
def CommandUnit.isOwn (cu : CommandUnit) (w : Word) : Bool := cu.loaded && w == cu.identity

/-! ## Records of a roster (R59) -/

/-- The record at a position. -/
def recordAtPosition (rs : List Record) (p : Nat) : Option Record := rs.find? (fun r => r.position == p)

/-- The record of an identity. -/
def recordOf (rs : List Record) (w : Word) : Option Record := rs.find? (fun r => r.identity == w)

/-- The master car's record. -/
def masterRecord (rs : List Record) : Option Record := rs.find? (fun r => r.master)

/-- The master identity; none while the roster is empty (R59, R87). -/
def masterIdentity (rs : List Record) : Option Word := (masterRecord rs).map (fun r => r.identity)

/-- The own record (R62). -/
def ownRecord (own : Word) (rs : List Record) : Option Record := recordOf rs own

/-- The own position, 0 without an own record (R62, R6, R183). -/
def ownPosition (own : Word) (rs : List Record) : Nat :=
  match ownRecord own rs with
  | some r => r.position
  | none => 0

/-- Whether an end of a car with this orientation faces the lead (R62). -/
def facesLead : Orientation → End → Bool
  | .normal, .a => true | .normal, .b => false | .reversed, .a => false | .reversed, .b => true

/-- The lead-facing end of an orientation (R62). -/
def leadEnd : Orientation → End
  | .normal => .a | .reversed => .b

/-- The tail-facing end of an orientation (R62). -/
def tailEnd : Orientation → End
  | .normal => .b | .reversed => .a

/-! ## Expectation and standing (R63, R64) -/

/-- What an end expects: the adjacency it faces, and the car and end there. -/
structure Expectation where
  adjacency : Nat
  identity : Word
  endCode : Byte
  deriving DecidableEq, Repr

/-- The expectation of end `e` of the car of record `r` in a roster (R63; used for the own car and, in R133, for a reporter). A
lead-facing end faces the tail-facing end of the record before; a tail-facing end the lead-facing end of the record after. -/
def expectation (rs : List Record) (r : Record) (e : End) : Option Expectation :=
  if facesLead r.orientation e then
    if 2 ≤ r.position then
      (recordAtPosition rs (r.position - 1)).map fun x =>
        { adjacency := r.position - 1, identity := x.identity, endCode := End.code (tailEnd x.orientation) }
    else none
  else
    if r.position < rs.length then
      (recordAtPosition rs (r.position + 1)).map fun x =>
        { adjacency := r.position, identity := x.identity, endCode := End.code (leadEnd x.orientation) }
    else none

/-- The expectation of an own end: nothing while the roster is empty. -/
def ownExpectation (own : Word) (rs : List Record) (e : End) : Option Expectation :=
  match ownRecord own rs with
  | some r => expectation rs r e
  | none => none

/-- JOINED or FADING. -/
def LinkState.isJoined : LinkState → Bool
  | .joined | .fading => true
  | .dark | .settling | .greeting | .mute | .listen => false

/-- Whether an identity and end code are those expected (R64, R133). -/
def Expectation.isMet (x : Expectation) (identity : Word) (endCode : Byte) : Bool :=
  identity == x.identity && endCode == x.endCode

/-- The standing of an end from its link monitor and its expectation: the table of R64. -/
def standingOf (c : Clm) (x : Option Expectation) : Standing :=
  if c.link.isJoined then
    match x, c.neighbour with
    | some x, some n => if x.isMet n.identity n.endCode then .matched else .foreign
    | some _, none => .foreign
    | none, _ => .foreign
  else if x.isSome then .missing else .vacant

/-! ## The cut map (R68) -/

/-- An adjacency entered in an increasing list, if absent. -/
def cutEnter (k : Nat) : List Nat → List Nat
  | [] => [k]
  | j :: js => if k < j then k :: j :: js else if k = j then j :: js else j :: cutEnter k js

/-- An adjacency removed, if present. -/
def cutRemove (k : Nat) (l : List Nat) : List Nat := l.filter (fun j => j != k)

/-- The own adjacency of one end brought into line with its standing (R68). -/
def cutAlign (x : Option Expectation) (st : Standing) (l : List Nat) : List Nat :=
  match x with
  | none => l
  | some x => if st = .matched then cutRemove x.adjacency l else cutEnter x.adjacency l

/-! ## Authority and settledness (R70, R67) -/

/-- No adjacency of the cut map lies between the own position and the master car's position. -/
def severedFrom (p m : Nat) (cut : List Nat) : Bool := cut.any (fun k => decide (min p m ≤ k) && decide (k < max p m))

/-- The authority state (R70). -/
def authorityOf (own : Word) (rs : List Record) (cut : List Nat) : Authority :=
  if rs.isEmpty then .lone
  else
    match masterRecord rs with
    | none => .governed
    | some m => if severedFrom (ownPosition own rs) m.position cut then .orphaned else .governed

/-- An end that leaves the part settled: MATCHED or VACANT (R67). -/
def Standing.isSettled : Standing → Bool
  | .matched | .vacant => true
  | .foreign | .missing => false

/-- Settledness (R67). -/
def settledOf (a b : Standing) : Bool := a.isSettled && b.isSettled

/-! ## Classes on the line and held in effect (R168) -/

/-- Whether a port is transmitting a queued frame of a class. -/
def PortQueues.sends (q : PortQueues) (c : Cls) : Bool :=
  match q.tx with
  | some { item := .queued d _, bytes := _ } => d == c
  | _ => false

/-- Whether any port is transmitting a frame of a class. -/
def Eqm.sends (q : Eqm) (c : Cls) : Bool := q.portA.sends c || q.portB.sends c || q.portC.sends c

/-- The classes held in effect: in the hold set while no port transmits a frame of the class (R168). -/
def Eqm.heldInEffect (q : Eqm) : ClassSet :=
  { c1 := q.hold.c1 && !q.sends .c1, c2 := q.hold.c2 && !q.sends .c2, c3 := q.hold.c3 && !q.sends .c3 }

/-! ## Staging (R84) -/

/-- The body of a staging; none in EMPTY. -/
def Staging.body? : Staging → Option StagingBody
  | .empty => none
  | .filling b => some b
  | .confirming b _ => some b
  | .confirmed b _ => some b

/-- The confirmed record; present in CONFIRMED alone. -/
def Staging.confirmed? : Staging → Option ConfirmedRecord
  | .confirmed _ r => some r
  | .empty => none
  | .filling _ => none
  | .confirming _ _ => none

/-- The generation of the confirmed record, 0 in every other state (R128, R183). -/
def Staging.confirmedGeneration (st : Staging) : Half :=
  match st.confirmed? with
  | some r => r.generation
  | none => 0

/-- The next position: one more than the records held (R84). -/
def StagingBody.nextPosition (b : StagingBody) : Nat := b.records.length + 1

end Sys2Proof.Machine
end

