-- ==== Sys2Proof/Machine/Ops.lean ====
section
/-! DEFINITION. The named operations on the blocks: accessors, discards (R14, R15), the egress queues, cells and cyclic slots
(09), admission (R155 to R160), flooding (R78), responses (R174), and time (R21, R23). -/

namespace Sys2Proof.Machine

/-! ## Accessors -/

/-- The link monitor of an end. -/
def State.clm (s : State) : End → Clm
  | .a => s.clmA
  | .b => s.clmB

/-- The state with one link monitor replaced. -/
def State.setClm (s : State) (e : End) (c : Clm) : State :=
  match e with
  | .a => { s with clmA := c }
  | .b => { s with clmB := c }

/-- The level of the PRESENCE input of an end. -/
def State.presence (s : State) : End → Bool
  | .a => s.lines.presenceA
  | .b => s.lines.presenceB

/-- The standing of an end. -/
def RosterUnit.standing (u : RosterUnit) : End → Standing
  | .a => u.standingA
  | .b => u.standingB

/-- The own identity as frames carry it. -/
def State.ownId (s : State) : Word := s.cu.ownIdentity

/-- The own position, 0 in LONE. -/
def State.ownPos (s : State) : Nat := ownPosition s.ownId s.ru.active.records

/-- The WAKE output follows the wake flag (R54). -/
def State.wakeOutput (s : State) : Bool := s.rouse.wakeFlag

/-- Whether the link of a port is JOINED or FADING. Port C has no link state and is always up (R155, R162). -/
def State.portJoined (s : State) : Port → Bool
  | .a => s.clmA.link.isJoined
  | .b => s.clmB.link.isJoined
  | .c => true

/-- Whether the end of a port stands MATCHED. Port C has no standing and takes every data copy (R155). -/
def State.portMatched (s : State) : Port → Bool
  | .a => s.ru.standingA == .matched
  | .b => s.ru.standingB == .matched
  | .c => true

/-- The egress side of a port. -/
def Eqm.port (q : Eqm) : Port → PortQueues
  | .a => q.portA
  | .b => q.portB
  | .c => q.portC

/-- The queue manager with the egress side of one port replaced. -/
def Eqm.setPort (q : Eqm) (p : Port) (x : PortQueues) : Eqm :=
  match p with
  | .a => { q with portA := x }
  | .b => { q with portB := x }
  | .c => { q with portC := x }

/-- One queue of a port. -/
def PortQueues.queue (x : PortQueues) : Cls → List Entry
  | .c0 => x.c0
  | .c1 => x.c1
  | .c2 => x.c2
  | .c3 => x.c3

/-- A port with one queue replaced. -/
def PortQueues.setQueue (x : PortQueues) (c : Cls) (l : List Entry) : PortQueues :=
  match c with
  | .c0 => { x with c0 := l }
  | .c1 => { x with c1 := l }
  | .c2 => { x with c2 := l }
  | .c3 => { x with c3 := l }

/-- The queue manager with one queue replaced. -/
def Eqm.setQueue (q : Eqm) (p : Port) (c : Cls) (l : List Entry) : Eqm := q.setPort p ((q.port p).setQueue c l)

/-- One queue of the queue manager. -/
def Eqm.queue (q : Eqm) (p : Port) (c : Cls) : List Entry := (q.port p).queue c

/-- The class of a data class. -/
def DataClass.toCls : DataClass → Cls
  | .c1 => .c1
  | .c2 => .c2
  | .c3 => .c3

/-- The policy of a class at a re-evaluation (R150). C0 has none and is not asked. -/
def ClassMatcher.policy (m : ClassMatcher) : DataClass → Policy
  | .c1 => m.policy1
  | .c2 => m.policy2
  | .c3 => m.policy3

/-- The policy of one class replaced. -/
def ClassMatcher.setPolicy (m : ClassMatcher) (p : Policy) : DataClass → ClassMatcher
  | .c1 => { m with policy1 := p }
  | .c2 => { m with policy2 := p }
  | .c3 => { m with policy3 := p }

/-! ## Discards (R14, R15) -/

/-- A 16-bit count raised by one, saturating at 65,535 (R14, R176). -/
def saturate (h : Half) : Half := if h = 0xFFFF then h else h + 1

/-- The tally of a reason. -/
def Tallies.get (t : Tallies) : Reason → Half
  | .frameFault => t.frameFault | .staleGeneration => t.staleGeneration | .stranded => t.stranded
  | .foreignLink => t.foreignLink | .noPath => t.noPath | .hopExhausted => t.hopExhausted
  | .ruleDiscard => t.ruleDiscard | .queueFull => t.queueFull | .poolExhausted => t.poolExhausted
  | .slotExhausted => t.slotExhausted | .overtakenReroute => t.overtakenReroute
  | .flushedAtEnact => t.flushedAtEnact | .linkLost => t.linkLost

/-- The tally of one reason raised. -/
def Tallies.raise (t : Tallies) : Reason → Tallies
  | .frameFault => { t with frameFault := saturate t.frameFault }
  | .staleGeneration => { t with staleGeneration := saturate t.staleGeneration }
  | .stranded => { t with stranded := saturate t.stranded }
  | .foreignLink => { t with foreignLink := saturate t.foreignLink }
  | .noPath => { t with noPath := saturate t.noPath }
  | .hopExhausted => { t with hopExhausted := saturate t.hopExhausted }
  | .ruleDiscard => { t with ruleDiscard := saturate t.ruleDiscard }
  | .queueFull => { t with queueFull := saturate t.queueFull }
  | .poolExhausted => { t with poolExhausted := saturate t.poolExhausted }
  | .slotExhausted => { t with slotExhausted := saturate t.slotExhausted }
  | .overtakenReroute => { t with overtakenReroute := saturate t.overtakenReroute }
  | .flushedAtEnact => { t with flushedAtEnact := saturate t.flushedAtEnact }
  | .linkLost => { t with linkLost := saturate t.linkLost }

/-- One discard: its tally is raised and the last discard record overwritten, with the clock of the discard. -/
def DiscardLog.add (l : DiscardLog) (clock : Word) (d : Discard) : DiscardLog :=
  { tallies := l.tallies.raise d.reason, last := some { discard := d, clock := clock } }

/-- Discards one after another. -/
def DiscardLog.addAll (l : DiscardLog) (clock : Word) (ds : List Discard) : DiscardLog :=
  ds.foldl (fun l d => l.add clock d) l

/-- Discards taken by the part, in order. -/
def State.take (s : State) (ds : List Discard) : State := { s with discards := s.discards.addAll s.clock ds }

/-- The discard of a frame as it stands (R15). -/
def Frame.discard (f : Frame) (i : Ingress) (r : Reason) : Discard :=
  { reason := r, ingress := i, kind := f.kind.code, source := f.srcId }

/-- The discard of bytes that fail the arrival checks (R9): the kind is the first byte or 0, the source is bytes 8 to 11 or 0. -/
def faultOfBytes (i : Ingress) (bytes : List Byte) : Discard :=
  { reason := .frameFault, ingress := i, kind := byteAt bytes 0, source := if bytes.length < 12 then 0 else wordAt bytes 8 }

/-- The discard of a queued copy, with the ingress recorded at its admission (R15). -/
def Entry.discard (e : Entry) (r : Reason) : Discard := e.frame.discard e.ingress r

/-! ## Cells and slots (R152, R153, R157) -/

/-- The cells of a copy: its length divided by 128, rounded up. -/
def Entry.cells (e : Entry) : Nat := (e.frame.length + 127) / 128

/-- The cells of a list of copies. -/
def cellsOf (l : List Entry) : Nat := (l.map Entry.cells).sum

/-- The limit on the frames of a queue (R154). -/
def Cls.limit : Cls → Nat
  | .c0 => 8 | .c1 => 32 | .c2 => 32 | .c3 => 48

/-- The cells that must remain free after a copy of the class has taken its own: the reserve of 96 for C2 and C3 (R153). -/
def Cls.reserve : Cls → Nat
  | .c0 => 0 | .c1 => 0 | .c2 => 96 | .c3 => 96

/-- Every queued copy of a port. -/
def PortQueues.entries (x : PortQueues) : List Entry := x.c0 ++ x.c1 ++ x.c2 ++ x.c3

/-- The number of cyclic slots of a port that are held: one by each queued copy with a key (R157). -/
def PortQueues.slotsHeld (x : PortQueues) : Nat := (x.entries.filter (fun e => e.key.isSome)).length

/-- The cyclic slots of a port (R157). -/
def slotCount : Nat := 64

/-- Whether a copy holds the slot of a key. -/
def Entry.hasKey (k : CyclicKey) (e : Entry) : Bool := e.key == some k

/-- The class and copy that hold the slot of a key on a port. -/
def PortQueues.holder (x : PortQueues) (k : CyclicKey) : Option (Cls × Entry) :=
  match x.c0.find? (Entry.hasKey k) with
  | some e => some (.c0, e)
  | none =>
    match x.c1.find? (Entry.hasKey k) with
    | some e => some (.c1, e)
    | none =>
      match x.c2.find? (Entry.hasKey k) with
      | some e => some (.c2, e)
      | none =>
        match x.c3.find? (Entry.hasKey k) with
        | some e => some (.c3, e)
        | none => none

/-- The cells a transmission holds: those of a queued frame; a GREET or ROUSE takes none (R163). -/
def TxItem.cells : TxItem → Nat
  | .queued _ e => e.cells
  | .greet => 0
  | .rouse => 0

/-- The cells a port holds, queued and in transmission. -/
def PortQueues.cells (x : PortQueues) : Nat :=
  cellsOf x.entries + (match x.tx with | some t => t.item.cells | none => 0)

/-- The cells all ports hold. -/
def Eqm.heldCells (q : Eqm) : Nat := q.portA.cells + q.portB.cells + q.portC.cells

/-! ## The overtaken report (R160) -/

/-- The count of an entry of the report raised, with 255 staying at 255. -/
def OvertakenEntry.raise (e : OvertakenEntry) : OvertakenEntry := { e with count := if e.count < 255 then e.count + 1 else e.count }

/-- Whether an entry of the report is that of a key and port. -/
def OvertakenEntry.isFor (k : CyclicKey) (p : Port) (e : OvertakenEntry) : Bool := e.key == k && e.port == p

/-- A key entered for a port. -/
def Eqm.enterOvertaken (q : Eqm) (k : CyclicKey) (p : Port) : Eqm :=
  if q.overtaken.any (OvertakenEntry.isFor k p) then
    { q with overtaken := q.overtaken.map (fun e => if e.isFor k p then e.raise else e) }
  else if q.overtaken.length < 16 then { q with overtaken := q.overtaken ++ [{ key := k, port := p, count := 1 }] }
  else { q with overflow := true }

/-! ## Admission (R155 to R159) -/

/-- The first copy that holds a key, replaced in its place. -/
def replaceHolder (k : CyclicKey) (new : Entry) : List Entry → List Entry
  | [] => []
  | e :: es => if e.hasKey k then new :: es else e :: replaceHolder k new es

/-- The first copy that holds a key, removed. -/
def removeHolder (k : CyclicKey) : List Entry → List Entry
  | [] => []
  | e :: es => if e.hasKey k then es else e :: removeHolder k es

/-- Replacement of a queued cyclic copy `old` of class `oc` by a newer copy of the same key and class `c` (R158 where the classes
agree, R159 where they differ). The new copy is discarded, and the old one stays, where a test fails. -/
def Eqm.replace (q : Eqm) (p : Port) (k : CyclicKey) (oc : Cls) (old : Entry) (c : Cls) (new : Entry) : Eqm × Option Reason :=
  if oc = c then
    if new.cells ≤ old.cells ∨ new.cells + c.reserve ≤ q.freeCells + old.cells then
      let q1 := q.setQueue p c (replaceHolder k new (q.queue p c))
      ({ q1 with freeCells := q1.freeCells + old.cells - new.cells }.enterOvertaken k p, none)
    else (q, some .poolExhausted)
  else if c.limit ≤ (q.queue p c).length then (q, some .queueFull)
  else if q.freeCells + old.cells < new.cells + c.reserve then (q, some .poolExhausted)
  else
    let q1 := q.setQueue p oc (removeHolder k (q.queue p oc))
    let q2 := q1.setQueue p c (q1.queue p c ++ [new])
    ({ q2 with freeCells := q2.freeCells + old.cells - new.cells }.enterOvertaken k p, none)

/-- The copy that holds the slot of a new copy's key on a port, with that key and its class. -/
def Eqm.holderFor (q : Eqm) (p : Port) (e : Entry) : Option (CyclicKey × Cls × Entry) :=
  match e.key with
  | none => none
  | some k =>
    match (q.port p).holder k with
    | none => none
    | some (oc, old) => some (k, oc, old)

/-- Tests 3 to 6 of R155, and the admission at the tail of the queue. -/
def Eqm.admitUp (q : Eqm) (p : Port) (c : Cls) (e : Entry) : Eqm × Option Reason :=
  match q.holderFor p e with
  | some (k, oc, old) => q.replace p k oc old c e
  | none =>
    if c.limit ≤ (q.queue p c).length then (q, some .queueFull)
    else if q.freeCells < e.cells + c.reserve then (q, some .poolExhausted)
    else if e.key.isSome ∧ slotCount ≤ (q.port p).slotsHeld then (q, some .slotExhausted)
    else
      let q1 := q.setQueue p c (q.queue p c ++ [e])
      ({ q1 with freeCells := q1.freeCells - e.cells }, none)

/-- Admission of a copy to a port, with the reason where it is discarded (R155). `joined` and `matched` are the link and standing
of the port, both true for port C. -/
def Eqm.admitCopy (q : Eqm) (joined matched : Bool) (p : Port) (c : Cls) (e : Entry) : Eqm × Option Reason :=
  if !joined then (q, some .linkLost)
  else if e.frame.kind.isData && !matched then (q, some .foreignLink)
  else q.admitUp p c e

/-- A copy offered for admission to a port: admitted, or discarded and counted (R155, R156). -/
def State.offer (s : State) (p : Port) (c : Cls) (e : Entry) : State :=
  match s.eqm.admitCopy (s.portJoined p) (s.portMatched p) p c e with
  | (q, none) => { s with eqm := q }
  | (q, some r) => { s with eqm := q }.take [e.discard r]

/-- Whether a copy offered to a port would be admitted. -/
def State.admits (s : State) (p : Port) (c : Cls) (e : Entry) : Bool :=
  (s.eqm.admitCopy (s.portJoined p) (s.portMatched p) p c e).2.isNone

/-- A C0 entry: no cyclic key and no flags (R139). -/
def controlEntry (i : Ingress) (f : Frame) : Entry :=
  { frame := f, ingress := i, key := none, localCopy := false, sleepResponse := false }

/-! ## Purges and aborts (R164 to R166) -/

/-- A queue emptied: its copies discarded, front first, and their cells returned. -/
def Eqm.purgeQueue (q : Eqm) (p : Port) (c : Cls) (r : Reason) : Eqm × List Discard :=
  ({ q.setQueue p c [] with freeCells := q.freeCells + cellsOf (q.queue p c) }, (q.queue p c).map (fun e => e.discard r))

/-- Queues emptied one after another. -/
def Eqm.purgeQueues (q : Eqm) (p : Port) (r : Reason) : List Cls → Eqm × List Discard
  | [] => (q, [])
  | c :: cs =>
    let x := q.purgeQueue p c r
    let y := x.1.purgeQueues p r cs
    (y.1, x.2 ++ y.2)

/-- The transmission of a queued frame aborted, its cells returned and the frame counted LINK_LOST (R164, R165). A GREET or ROUSE
in transmission follows R27. -/
def Eqm.abortLost (q : Eqm) (p : Port) : Eqm × List Discard :=
  match (q.port p).tx with
  | some { item := .queued _ e, bytes := _ } =>
    ({ q.setPort p { q.port p with tx := none } with freeCells := q.freeCells + e.cells }, [e.discard .linkLost])
  | _ => (q, [])

/-- The link-loss purge of a port (R165): the transmission first, then C0 to C3. -/
def State.linkLossPurge (s : State) (p : Port) : State :=
  let x := s.eqm.abortLost p
  let y := x.1.purgeQueues p .linkLost [.c0, .c1, .c2, .c3]
  { s with eqm := y.1 }.take (x.2 ++ y.2)

/-- The standing-leave purge of the port of an end (R166), with the reason of the port's state when it is taken. -/
def State.standingLeavePurge (s : State) (e : End) : State :=
  let r : Reason :=
    if (s.clm e).link.isJoined then (if s.ru.standing e = .foreign then .foreignLink else .noPath) else .linkLost
  let y := s.eqm.purgeQueues (End.toPort e) r [.c1, .c2, .c3]
  { s with eqm := y.1 }.take y.2

/-- A GREET or ROUSE in transmission abandoned, without tally (R27). -/
def Eqm.abandonLinkControl (q : Eqm) (p : Port) : Eqm :=
  match (q.port p).tx with
  | some { item := .greet, bytes := _ } => q.setPort p { q.port p with tx := none }
  | some { item := .rouse, bytes := _ } => q.setPort p { q.port p with tx := none }
  | _ => q

/-! ## Frames the part builds (R7) and flooding (R78) -/

/-- The header of a frame the part originates, with its payload (R7). -/
def State.originate (s : State) (k : Kind) (hop : Byte) (tag : Half) (payload : List Byte) : Frame :=
  { kind := k, hop := hop, generation := s.ru.active.generation, dstPos := 0, dstDev := 0, srcPos := natByte s.ownPos,
    srcDev := 0, srcId := s.ownId, tag := tag, payload := payload }

/-- The flooded copy for one coupler port (R78, R77): none on the arrival port or on a link that is not JOINED or FADING. -/
def State.floodPort (s : State) (i : Ingress) (f : Frame) (e : End) : State :=
  if i = .port (End.toPort e) then s
  else if !(s.clm e).link.isJoined then s
  else if f.hop = 0 then s.take [f.discard i .hopExhausted]
  else s.offer (End.toPort e) .c0 (controlEntry i f)

/-- A control frame flooded (R78). -/
def State.flood (s : State) (i : Ingress) (f : Frame) : State := (s.floodPort i f .a).floodPort i f .b

/-- The routing of a MGMT_RSP by its target (R80). -/
def State.routeResponse (s : State) (i : Ingress) (f : Frame) (target : Word) : State :=
  if s.cu.isOwn target then
    if i = .port .c then s.take [f.discard i .noPath]
    else s.offer .c .c0 (controlEntry i f)
  else s.flood i f

/-! ## Responses (R174, R176) -/

/-- Where the answer to a request goes and the tags it repeats. -/
structure ReplyTo where
  port : Port
  sender : Word
  seqTag : Half
  requestTag : Half
  code : Byte
  deriving DecidableEq, Repr

/-- The target identity of a response (R174). -/
def State.replyTarget (s : State) (t : ReplyTo) : Word :=
  match t.port with
  | .c => s.ownId
  | .a | .b => t.sender

/-- The MGMT_RSP of an outcome with its result data (R174). -/
def State.buildReply (s : State) (t : ReplyTo) (o : ReplyCode) (result : List Byte) : Frame :=
  s.originate .mgmtRsp 31 t.seqTag
    (Word.bytes (s.replyTarget t) ++ Word.bytes s.ownId ++ Half.bytes t.requestTag ++ [t.code, o.code] ++ result)

/-- A response built and offered (R174): on port C to the C0 queue of port C alone, on A and B routed by R80. -/
def State.answer (s : State) (t : ReplyTo) (o : ReplyCode) (result : List Byte) : State :=
  let f := s.buildReply t o result
  match t.port with
  | .c => s.offer .c .c0 (controlEntry .internal f)
  | .a | .b => s.routeResponse .internal f t.sender

/-- What a request's answer needs, with the command code of its row. -/
def Request.replyTo (r : Request) (code : Byte) : ReplyTo :=
  { port := r.port, sender := Request.sender r, seqTag := r.seqTag, requestTag := r.requestTag, code := code }

/-- The response to a request; none for target ALL (R174, R175). -/
def State.respond (s : State) (r : Request) (code : Byte) (o : ReplyCode) (result : List Byte) : State :=
  if r.target = targetAll then s else s.answer (Request.replyTo r code) o result

/-- One outcome other than DONE counted (R176). -/
def State.countRefusal (s : State) : State := { s with cu := { s.cu with refusals := saturate s.cu.refusals } }

/-- A request refused: counted, and answered where it is answered (R172, R175, R176). -/
def State.refuse (s : State) (r : Request) (code : Byte) (o : ReplyCode) (result : List Byte) : State :=
  s.countRefusal.respond r code o result

/-! ## Time (R21, R23) -/

/-- One microsecond of a timer: a running timer comes one microsecond nearer to its expiry, which is an event of its own. -/
def tickTimer (t : Timer) : Timer := t.map (fun n => n - 1)

/-- A timer expires when it runs and its whole duration has passed: no time is left to it (R21, R102, R122, R126). A stopped or
restarted timer has no expiry to take. -/
def isDue (t : Timer) : Bool := t == some 0

/-- One microsecond of a link monitor's timers. -/
def Clm.tick (c : Clm) : Clm :=
  { c with settle := tickTimer c.settle, greet := tickTimer c.greet, fade := tickTimer c.fade, rouse := tickTimer c.rouse }

/-- One microsecond of the reference clock: the local clock advances and wraps (R23), and running timers come nearer (log 2). -/
def State.tick (s : State) : State :=
  { s with clock := s.clock + 1, clmA := s.clmA.tick, clmB := s.clmB.tick, ru := { s.ru with grace := tickTimer s.ru.grace },
           ng := { s.ng with timer := tickTimer s.ng.timer }, su := { s.su with timer := tickTimer s.su.timer } }

end Sys2Proof.Machine
end

