-- ==== Sys2Proof/Machine/Arbiter.lean ====
section
/-! DEFINITION. The arbiter (09 section 9.6): the frames of the link-control slot (R25, R28), the choice at a frame boundary (R161,
R162), the start of a transmission (R163), and the starts that are due before a command. -/

namespace Sys2Proof.Machine

/-- The heard identity and end of a GREET, by link state (R25). -/
def Clm.heard (c : Clm) : Word × Byte :=
  if c.link.isJoined then
    match c.neighbour with
    | some n => (n.identity, n.endCode)
    | none => (0, 0)
  else
    match c.candidate with
    | some x => (x.identity, x.endCode)
    | none => (0, 0)

/-- The GREET of a coupler port, built when its transmission begins (R25). -/
def State.buildGreet (s : State) (e : End) : Frame :=
  let h := (s.clm e).heard
  s.originate .greet 0 0
    (Word.bytes s.ownId ++ [End.code e] ++ Half.bytes s.ru.active.generation ++ Word.bytes h.1 ++ [h.2])

/-- The ROUSE of a coupler port: eight bytes of 5Ah and six copies of ALL (R28). -/
def State.buildRouse (s : State) : Frame := s.originate .rouse 0 0 (List.replicate 8 0x5A ++ List.replicate 24 0xFF)

/-- The link states in which the slot is served (R27, R162). -/
def LinkState.servesSlot : LinkState → Bool
  | .greeting | .mute | .joined | .fading => true
  | .dark | .settling | .listen => false

/-- What the arbiter takes at a frame boundary. -/
inductive Pick where
  | rouse (e : End)
  | greet (e : End)
  | front (c : Cls) (x : Entry)
  deriving DecidableEq, Repr

/-- The eligible item of the link-control slot of a port: a pending ROUSE before a pending GREET (R161). -/
def State.slotPick (s : State) (p : Port) : Option Pick :=
  match Port.end? p with
  | none => none
  | some e =>
    if (s.clm e).link.servesSlot then
      if (s.clm e).slot.rouse then some (.rouse e) else if (s.clm e).slot.greet then some (.greet e) else none
    else none

/-- Whether the front frame of a class may be sent on a port (R162, R161): C0 on a JOINED or FADING link, C1 to C3 on a MATCHED
end as well and not while the class is held. -/
def State.mayServe (s : State) (p : Port) (c : Cls) : Bool :=
  match c with
  | .c0 => s.portJoined p
  | .c1 => s.portJoined p && s.portMatched p && !s.eqm.hold.c1
  | .c2 => s.portJoined p && s.portMatched p && !s.eqm.hold.c2
  | .c3 => s.portJoined p && s.portMatched p && !s.eqm.hold.c3

/-- The front frame of the first class that has an eligible one. -/
def State.queuePick (s : State) (p : Port) : List Cls → Option Pick
  | [] => none
  | c :: cs =>
    match s.mayServe p c, s.eqm.queue p c with
    | true, x :: _ => some (.front c x)
    | _, _ => s.queuePick p cs

/-- The arbiter's choice: the first eligible item in the strict order of R161. Nothing is eligible while DORMANT. -/
def State.pick (s : State) (p : Port) : Option Pick :=
  if s.power = .dormant then none
  else
    match s.slotPick p with
    | some x => some x
    | none => s.queuePick p [.c0, .c1, .c2, .c3]

/-- The header a queued copy goes onto the line with: the arrival value minus 1 on a coupler port, the arrival value on port C
(R5, R163). -/
def Entry.lineFrame (e : Entry) (p : Port) : Frame :=
  if p = .c then e.frame else { e.frame with hop := e.frame.hop - 1 }

/-- A transmission started on a port. -/
def Eqm.send (q : Eqm) (p : Port) (t : Tx) : Eqm := q.setPort p { q.port p with tx := some t }

/-- The slot with a pending mark removed (R27). -/
def Clm.unplaceRouse (c : Clm) : Clm := { c with slot := { c.slot with rouse := false } }

/-- The slot with the pending GREET removed (R27). -/
def Clm.unplaceGreet (c : Clm) : Clm := { c with slot := { c.slot with greet := false } }

/-- The start of the transmission of an item (R163): it leaves its queue or slot, and its bytes are fixed with the frame check
word. A queued frame keeps its cells and gives up its slot, which is its key. -/
def State.begin (s : State) (p : Port) : Pick → State
  | .rouse e =>
    let t := s.setClm e (s.clm e).unplaceRouse
    { t with eqm := t.eqm.send p { item := .rouse, bytes := s.buildRouse.wire } }
  | .greet e =>
    let t := s.setClm e (s.clm e).unplaceGreet
    { t with eqm := t.eqm.send p { item := .greet, bytes := (s.buildGreet e).wire } }
  | .front c x =>
    { s with eqm := (s.eqm.setQueue p c (s.eqm.queue p c).tail).send p
                      { item := .queued c x, bytes := (x.lineFrame p).wire } }

/-- At a frame boundary the arbiter takes its choice; while the port is sending there is none, and with nothing eligible the port
stays idle (R161). -/
def State.arbitrate (s : State) (p : Port) : State :=
  if (s.eqm.port p).tx.isSome then s
  else
    match s.pick p with
    | none => s
    | some x => s.begin p x

/-- Every start that is due made: each idle port with something eligible begins its first item (R161: "its transmission begins at
once"). The arbiters are independent, so the order of the ports shows nowhere. -/
def State.begun (s : State) : State := ((s.arbitrate .a).arbitrate .b).arbitrate .c

/-- A command with the effect `f`: what became eligible at an idle port before it has begun before it (R161: "The item of the event taken
first begins at once"; the form is log 6). -/
def State.runs (s : State) (f : State → State) : Host.Outcome State Fault Refusal := .next (f s.begun)

end Sys2Proof.Machine
end

