-- ==== Sys2Proof/Machine/Judge.lean ====
section
/-! DEFINITION. The roster unit's computation (R65), the notice generator (R126 to R130), link changes (R42) and the entry
actions of the link states (02). -/

namespace Sys2Proof.Machine

/-! ## The computation of R65 -/

/-- The standings computed from the links and the active roster, the own adjacencies of the cut map brought into line, authority
recomputed and settledness derived, in that order (R65). With `clear` the cut map is cleared first and rebuilt from own standing
alone (R69). -/
def State.recompute (s : State) (clear : Bool) : State :=
  let rs := s.ru.active.records
  let xa := ownExpectation s.ownId rs .a
  let xb := ownExpectation s.ownId rs .b
  let sa := standingOf s.clmA xa
  let sb := standingOf s.clmB xb
  let cut := cutAlign xb sb (cutAlign xa sa (if clear then [] else s.ru.cutMap))
  { s with
    ru := { s.ru with standingA := sa, standingB := sb, cutMap := cut, authority := authorityOf s.ownId rs cut }
    ng := { s.ng with settled := settledOf sa sb } }

/-- The standing-leave purge of an end that the computation moved out of MATCHED (R66). -/
def State.purgeIfLeft (s : State) (before : RosterUnit) (e : End) : State :=
  if before.standing e = .matched ∧ s.ru.standing e ≠ .matched then s.standingLeavePurge e else s

/-! ## The notice generator -/

/-- The report of one end in a NOTICE (R128, 12 bytes). -/
def endReport (c : Clm) (st : Standing) : List Byte :=
  let n : Option Neighbour := if c.link.isJoined then c.neighbour else none
  [LinkState.code c.link, st.code]
    ++ (match n with | some n => Word.bytes n.identity ++ [n.endCode] | none => [0, 0, 0, 0, 0])
    ++ [c.lastChange.cause.code] ++ Word.bytes c.lastChange.clock

/-- The body of a NOTICE (R128, 28 bytes). -/
def State.noticeBody (s : State) : List Byte :=
  [s.ru.authority.code, 0] ++ Half.bytes s.su.staging.confirmedGeneration
    ++ endReport s.clmA s.ru.standingA ++ endReport s.clmB s.ru.standingB

/-- The NOTICE the part emits at this moment (R128). -/
def State.buildNotice (s : State) : Frame := s.originate .notice 31 0 s.noticeBody

/-- One copy of a NOTICE offered to a coupler port whose link is JOINED or FADING (R129). -/
def State.offerNotice (s : State) (f : Frame) (e : End) : State :=
  if (s.clm e).link.isJoined then s.offer (End.toPort e) .c0 (controlEntry .internal f) else s

/-- The notice timer started anew while the part is unsettled and stopped when it is settled (R56, R130). -/
def State.noticeTimerAfter (s : State) : State :=
  { s with ng := { s.ng with timer := if s.ng.settled then none else startMs s.cu.timing.noticeInterval } }

/-- The notice timer after an emission (R130). An expiry that came together with a hand-over which leaves the part unsettled is still
taken after it, since the two "give two emissions in either order": its timer keeps no time left, and starts at that expiry (log 26). -/
def State.noticeTimerAfterEmission (s : State) : State :=
  { s with ng := { s.ng with timer :=
      if s.ng.settled then none else if isDue s.ng.timer then some 0 else startMs s.cu.timing.noticeInterval } }

/-- One emission: one NOTICE, its copies offered in port order A, B, C, and the notice timer (R128 to R130). -/
def State.emit (s : State) : State :=
  let f := s.buildNotice
  (((s.offerNotice f .a).offerNotice f .b).offer .c .c0 (controlEntry .internal f)).noticeTimerAfterEmission

/-- The hand-over to the notice generator (R127): one emission if a link change is handed over, or a standing or the authority
differs from before. -/
def State.handOverNotice (s : State) (linkChange : Bool) (before : RosterUnit) : State :=
  if linkChange = true ∨ s.ru.standingA ≠ before.standingA ∨ s.ru.standingB ≠ before.standingB
      ∨ s.ru.authority ≠ before.authority then s.emit else s

/-- A link change handed to the roster unit (R42, R65, R66, R127): the computation, the purges, the notice, in that order (log 9). -/
def State.linkChange (s : State) : State :=
  let t := s.recompute false
  ((t.purgeIfLeft s.ru .a).purgeIfLeft s.ru .b).handOverNotice true s.ru

/-! ## Entry actions of the link states -/

/-- What every entry to DARK (R29) and to LISTEN (R46) does to the monitor: timers stopped, counts 0, flag clear, records
absent, slot empty. The last-change capture stays. -/
def Clm.quiet (c : Clm) (l : LinkState) : Clm :=
  { c with link := l, settle := none, greet := none, fade := none, rouse := none, answerCount := 0, silenceCount := 0,
           rouseCount := 0, greetHeard := false, neighbour := none, candidate := none,
           slot := { greet := false, rouse := false } }

/-- Entry to SETTLING (R30). -/
def Clm.enterSettling (c : Clm) (t : Timing) : Clm := { c with link := .settling, settle := startMs t.settleTime }

/-- The test of R29 in DARK: presence asserted and identity loaded. -/
def State.settleIfReady (s : State) (e : End) : State :=
  if (s.clm e).link = .dark ∧ s.presence e = true ∧ s.cu.loaded = true then
    s.setClm e ((s.clm e).enterSettling s.cu.timing)
  else s

/-- Entry to DARK (R29, R27): the entry actions, a link-control frame on the line abandoned, and the test of presence. -/
def State.enterDark (s : State) (e : End) : State :=
  let t := s.setClm e ((s.clm e).quiet .dark)
  ({ t with eqm := t.eqm.abandonLinkControl (End.toPort e) }).settleIfReady e

/-- Entry to LISTEN (R46, R27). -/
def State.enterListen (s : State) (e : End) : State :=
  let t := s.setClm e ((s.clm e).quiet .listen)
  { t with eqm := t.eqm.abandonLinkControl (End.toPort e) }

/-- Entry to GREETING (R31), with the candidate of the transition. -/
def Clm.enterGreeting (c : Clm) (t : Timing) (cand : Option Candidate) : Clm :=
  { c with link := .greeting, answerCount := 0, silenceCount := 0, rouseCount := 0, greetHeard := false, settle := none,
           rouse := none, fade := none, greet := startMs t.greetPeriod, neighbour := none, candidate := cand,
           slot := { c.slot with greet := true } }

/-- Entry to MUTE (R34). -/
def Clm.enterMute (c : Clm) (t : Timing) : Clm :=
  { c with link := .mute, rouseCount := 0, rouse := startMs t.rouseInterval }

/-- Entry to JOINED (R36, R24). -/
def Clm.enterJoined (c : Clm) (clock : Word) (identity : Word) (endCode : Byte) (generation : Half) : Clm :=
  { c with link := .joined, candidate := none, silenceCount := 0, answerCount := 0, greetHeard := true,
           neighbour := some { identity := identity, endCode := endCode, generation := generation, joinedAt := clock },
           lastChange := { c.lastChange with clock := clock } }

/-- The capture of an exit from JOINED or FADING, and the neighbour record removed (R24, R42). -/
def Clm.lose (c : Clm) (clock : Word) (cause : LossCause) : Clm :=
  { c with neighbour := none, lastChange := { clock := clock, cause := cause } }

/-- An exit from JOINED or FADING to GREETING (R42, R43): capture, entry, link-loss purge, and the link change. -/
def State.loseToGreeting (s : State) (e : End) (cause : LossCause) (cand : Option Candidate) : State :=
  ((s.setClm e (((s.clm e).lose s.clock cause).enterGreeting s.cu.timing cand)).linkLossPurge (End.toPort e)).linkChange

/-- An exit from JOINED or FADING to DARK (R42, R43). -/
def State.loseToDark (s : State) (e : End) (cause : LossCause) : State :=
  (((s.setClm e ((s.clm e).lose s.clock cause)).enterDark e).linkLossPurge (End.toPort e)).linkChange

/-- An exit for a cause of the neighbour: a JOINED link goes to GREETING, a FADING one to DARK (R37, R38, R41). -/
def State.lose (s : State) (e : End) (cause : LossCause) (cand : Option Candidate) : State :=
  if (s.clm e).link = .fading then s.loseToDark e cause else s.loseToGreeting e cause cand

end Sys2Proof.Machine
end

