-- ==== Sys2Proof/Machine/Power.lean ====
section
/-! DEFINITION. Entry to DORMANT (R46, R49, R50), waking (R56), power-on reset and RESTART (R45, R58, R82, R105, R126, R169,
R180, R190). -/

namespace Sys2Proof.Machine

/-- The queues emptied without tally and every transmission aborted; the overtaken report, its flag and the hold set stay (R49). -/
def Eqm.emptied (q : Eqm) : Eqm := { q with freeCells := 768, portA := .empty, portB := .empty, portC := .empty }

/-- Entry to DORMANT: links to LISTEN, queues emptied, staging EMPTY with its job abandoned, prior roster dropped, judgements
recomputed with the cut map rebuilt, notice timer stopped, no NOTICE, sleep pending cleared. -/
def State.enterDormant (s : State) : State :=
  let t := (s.enterListen .a).enterListen .b
  let u := { t with eqm := t.eqm.emptied, su := .powerOn, ru := { t.ru with prior := none, grace := none } }
  let v := u.recompute true
  { v with ng := { v.ng with timer := none }, cu := { v.cu with sleepPending := false }, power := .dormant }

/-- Waking (R56): ACTIVE, links to DARK with the test of R29, judgements recomputed with the cut map rebuilt, no NOTICE, and the
notice timer started if the part is unsettled. -/
def State.wake (s : State) : State :=
  ((({ s with power := .active }.enterDark .a).enterDark .b).recompute true).noticeTimerAfter

/-- RESTART (R180): every block at its power-on values but the identity, the rouse capture, the wake flag and the clock; then the
links whose PRESENCE is asserted enter SETTLING (R45). -/
def State.restarted (s : State) : State :=
  let t : State :=
    { lines := s.lines, power := .active, clock := s.clock, clmA := .powerOn, clmB := .powerOn, rouse := s.rouse,
      ru := .powerOn, ng := .powerOn, su := .powerOn, cm := .powerOn, eqm := .powerOn, discards := .powerOn,
      cu := { CommandUnit.powerOn with identity := s.cu.identity, loaded := s.cu.loaded }, free := s.free,
      pending := s.pending }
  (t.settleIfReady .a).settleIfReady .b

/-- Power-on reset (R58): every block at its power-on values. The levels of the input lines are the outside's (log 7); the
identity is unloaded, so both links wait in DARK (R45). -/
def State.poweredOn (s : State) : State :=
  { State.reset with lines := s.lines, free := s.free, pending := s.pending }

end Sys2Proof.Machine
end

