-- ==== Sys2Proof/Machine/Egress.lean ====
section
/-! DEFINITION. The start of a transmission as a row of its own (R161), and its completion (R164). -/

namespace Sys2Proof.Machine

/-- TRANSMISSION_START: the arbiter of one port acts (R161; a row of its own, log 6). -/
def execTransmissionStart (p : Port) (s : State) : Host.Outcome State Fault Refusal := .next (s.arbitrate p)

/-- The completion of a transmission (R164): the cells go back to the pool, and a frame with the sleep-response flag makes the
part enter DORMANT. -/
def State.completed (s : State) (p : Port) : State :=
  match (s.eqm.port p).tx with
  | none => s
  | some t =>
    let q := s.eqm.setPort p { s.eqm.port p with tx := none }
    let u := { s with eqm := { q with freeCells := q.freeCells + t.item.cells } }
    match t.item with
    | .queued _ e => if e.sleepResponse then u.enterDormant else u
    | .greet => u
    | .rouse => u

/-- TRANSMISSION_COMPLETION: the completion of the transmission in progress on the port when the row is taken. A port that sends nothing
has none (log 4), and an item that is only now due to start there begins and does not end in the same step: a transmission takes a
positive time, and "no completion follows" a frame that a purge aborted (R164). -/
def execTransmissionCompletion (p : Port) (s : State) : Host.Outcome State Fault Refusal :=
  s.runs fun t => if (s.eqm.port p).tx.isSome then t.completed p else t

end Sys2Proof.Machine
end

