-- ==== Sys2Proof/Machine/Links.lean ====
section
/-! DEFINITION. The events of the coupler link monitors: presence (R20), the four timers (R30, R33, R34, R38, R40, R41) and the
receipt of a GREET (R26, R32, R35, R37, R41); and the notice timer (R130). -/

namespace Sys2Proof.Machine

/-! ## Presence (R20) -/

/-- The level of a PRESENCE input set. -/
def State.setPresence (s : State) (e : End) (v : Bool) : State :=
  match e with
  | .a => { s with lines := { s.lines with presenceA := v } }
  | .b => { s with lines := { s.lines with presenceB := v } }

/-- What each link state does at a presence assertion: DARK tests R29, FADING returns to JOINED (R40), no other state reacts. -/
def State.presenceAsserted (s : State) (e : End) : State :=
  match (s.clm e).link with
  | .dark => s.settleIfReady e
  | .fading => s.setClm e { s.clm e with link := .joined, fade := none }
  | .settling => s
  | .greeting => s
  | .mute => s
  | .joined => s
  | .listen => s

/-- What each link state does at a presence negation: SETTLING, GREETING and MUTE go to DARK (R30, R33, R35), JOINED to FADING
(R39), no other state reacts. -/
def State.presenceNegated (s : State) (e : End) : State :=
  match (s.clm e).link with
  | .settling => s.enterDark e
  | .greeting => s.enterDark e
  | .mute => s.enterDark e
  | .joined => s.setClm e { s.clm e with link := .fading, fade := startMs s.cu.timing.fadeTime }
  | .dark => s
  | .fading => s
  | .listen => s

/-- PRESENCE_ASSERTION: a change of the level from negated to asserted; an asserted input has none to make (log 4). -/
def execPresenceAssertion (e : End) (s : State) : Host.Outcome State Fault Refusal :=
  s.runs fun s => if s.presence e then s else (s.setPresence e true).presenceAsserted e

/-- PRESENCE_NEGATION: a change of the level from asserted to negated. -/
def execPresenceNegation (e : End) (s : State) : Host.Outcome State Fault Refusal :=
  s.runs fun s => if s.presence e then (s.setPresence e false).presenceNegated e else s

/-! ## Expiries -/

/-- The GREET part of the slot marked pending (R27). -/
def Clm.placeGreet (c : Clm) : Clm := { c with slot := { c.slot with greet := true } }

/-- The ROUSE part of the slot marked pending (R27). -/
def Clm.placeRouse (c : Clm) : Clm := { c with slot := { c.slot with rouse := true } }

/-- The settle expiry: SETTLING goes to GREETING without a candidate (R30, R31). -/
def State.settleExpired (s : State) (e : End) : State :=
  if (s.clm e).link = .settling then s.setClm e ((s.clm e).enterGreeting s.cu.timing none)
  else s.setClm e { s.clm e with settle := none }

/-- SETTLE_EXPIRY. Before the timer's duration has passed, and for a stopped timer, there is no expiry (R21; log 3, log 4). -/
def execSettleExpiry (e : End) (s : State) : Host.Outcome State Fault Refusal :=
  s.runs fun s => if isDue (s.clm e).settle then s.settleExpired e else s

/-- The answer count after a greet expiry in GREETING, and MUTE at the limit (R33). -/
def Clm.greetInGreeting (c : Clm) (t : Timing) : Clm :=
  let c' := { c.placeGreet with answerCount := c.answerCount + 1 }
  if t.answerLimit ≤ c'.answerCount then c'.enterMute t else c'

/-- The silence count after a greet expiry in JOINED or FADING (R38). -/
def Clm.silenceAfter (c : Clm) : Nat := if c.greetHeard then c.silenceCount else c.silenceCount + 1

/-- A greet expiry in JOINED or FADING: the silence count, the flag, and the loss at the limit or a GREET placed (R38, R41). -/
def State.greetInJoined (s : State) (e : End) : State :=
  let c := { s.clm e with silenceCount := (s.clm e).silenceAfter, greetHeard := false }
  if s.cu.timing.silenceLimit ≤ c.silenceCount then (s.setClm e c).lose e .silent none else s.setClm e c.placeGreet

/-- The greet expiry of each link state; the timer is periodic and starts again with the present period (R21). -/
def State.greetExpired (s : State) (e : End) : State :=
  let t := s.setClm e { s.clm e with greet := startMs s.cu.timing.greetPeriod }
  match (t.clm e).link with
  | .greeting => t.setClm e ((t.clm e).greetInGreeting t.cu.timing)
  | .mute => t.setClm e (t.clm e).placeGreet
  | .joined => t.greetInJoined e
  | .fading => t.greetInJoined e
  | .dark => t
  | .settling => t
  | .listen => t

/-- GREET_EXPIRY: the whole of a greet expiry, with the limit it may reach (R33, R34, R38, R41; log 5). -/
def execGreetExpiry (e : End) (s : State) : Host.Outcome State Fault Refusal :=
  s.runs fun s => if isDue (s.clm e).greet then s.greetExpired e else s

/-- Whether a greet expiry is due that raises the answer count to the limit (R33). -/
def State.answerLimitDue (s : State) (e : End) : Bool :=
  isDue (s.clm e).greet && (s.clm e).link == .greeting && decide (s.cu.timing.answerLimit ≤ (s.clm e).answerCount + 1)

/-- ANSWER_LIMIT_REACHED: the greet expiry in GREETING at which the answer count reaches the limit (R33; log 5). -/
def execAnswerLimitReached (e : End) (s : State) : Host.Outcome State Fault Refusal :=
  s.runs fun s => if s.answerLimitDue e then s.greetExpired e else s

/-- Whether a greet expiry is due that finds the silence count at the limit (R38, R41). -/
def State.silenceLimitDue (s : State) (e : End) : Bool :=
  isDue (s.clm e).greet && (s.clm e).link.isJoined && decide (s.cu.timing.silenceLimit ≤ (s.clm e).silenceAfter)

/-- SILENCE_LIMIT_REACHED: the greet expiry in JOINED or FADING at which the silence count reaches the limit (R38, R41; log 5). -/
def execSilenceLimitReached (e : End) (s : State) : Host.Outcome State Fault Refusal :=
  s.runs fun s => if s.silenceLimitDue e then s.greetExpired e else s

/-- The fade expiry: FADING goes to DARK with cause UNCOUPLED (R40). -/
def State.fadeExpired (s : State) (e : End) : State :=
  if (s.clm e).link = .fading then s.loseToDark e .uncoupled else s.setClm e { s.clm e with fade := none }

/-- FADE_EXPIRY. -/
def execFadeExpiry (e : End) (s : State) : Host.Outcome State Fault Refusal :=
  s.runs fun s => if isDue (s.clm e).fade then s.fadeExpired e else s

/-- The rouse expiry: a ROUSE placed and counted, the timer stopped at the burst and started again below it (R34). -/
def Clm.rouseExpired (c : Clm) (t : Timing) : Clm :=
  let c' := { c.placeRouse with rouseCount := c.rouseCount + 1 }
  { c' with rouse := if t.rouseBurst ≤ c'.rouseCount then none else startMs t.rouseInterval }

/-- The rouse expiry of a link; the timer runs in MUTE alone. -/
def State.rouseExpired (s : State) (e : End) : State :=
  if (s.clm e).link = .mute then s.setClm e ((s.clm e).rouseExpired s.cu.timing) else s.setClm e { s.clm e with rouse := none }

/-- ROUSE_EXPIRY: the whole of a rouse expiry, with the burst it may reach (R34; log 5). -/
def execRouseExpiry (e : End) (s : State) : Host.Outcome State Fault Refusal :=
  s.runs fun s => if isDue (s.clm e).rouse then s.rouseExpired e else s

/-- Whether a rouse expiry is due that raises the rouse count to the burst (R34). -/
def State.rouseBurstDue (s : State) (e : End) : Bool :=
  isDue (s.clm e).rouse && (s.clm e).link == .mute && decide (s.cu.timing.rouseBurst ≤ (s.clm e).rouseCount + 1)

/-- ROUSE_BURST_REACHED: the rouse expiry in MUTE at which the rouse count reaches the burst (R34; log 5). -/
def execRouseBurstReached (e : End) (s : State) : Host.Outcome State Fault Refusal :=
  s.runs fun s => if s.rouseBurstDue e then s.rouseExpired e else s

/-- The notice timer expires: an unsettled part emits and starts the timer again, a settled one leaves it stopped (R130). -/
def State.noticeExpired (s : State) : State :=
  let t := { s with ng := { s.ng with timer := none } }
  if s.ng.settled then t else t.emit

/-- NOTICE_TIMER_EXPIRY, when the notice interval has passed (R126, R130; log 3). -/
def execNoticeTimerExpiry (s : State) : Host.Outcome State Fault Refusal :=
  s.runs fun s => if isDue s.ng.timer then s.noticeExpired else s

/-! ## Receipt of a GREET -/

/-- The fields of a GREET body (R18). -/
structure GreetBody where
  sender : Word
  senderEnd : Byte
  generation : Half
  heard : Word
  heardEnd : Byte
  deriving DecidableEq, Repr

/-- The body of a GREET payload of at least 12 bytes. -/
def greetBody (p : List Byte) : GreetBody :=
  { sender := wordAt p 0, senderEnd := byteAt p 4, generation := halfAt p 5, heard := wordAt p 7, heardEnd := byteAt p 11 }

/-- The GREET names this part: heard identity and heard end are this car's identity and this port's end (R26). -/
def State.isNamed (s : State) (e : End) (g : GreetBody) : Bool := s.cu.isOwn g.heard && g.heardEnd == End.code e

/-- The GREET comes from the recorded neighbour (R37). -/
def Clm.isFromNeighbour (c : Clm) (g : GreetBody) : Bool :=
  match c.neighbour with
  | some n => n.identity == g.sender && n.endCode == g.senderEnd
  | none => false

/-- The sender of a GREET as a candidate. -/
def GreetBody.candidate (g : GreetBody) : Candidate := { identity := g.sender, endCode := g.senderEnd }

/-- A GREET of the neighbour that keeps the link: silence 0, flag set, generation last heard (R37). -/
def Clm.keepAlive (c : Clm) (g : GreetBody) : Clm :=
  { c with silenceCount := 0, greetHeard := true,
           neighbour := c.neighbour.map (fun n => { n with generation := g.generation }) }

/-- A valid GREET in each link state (R26, R32, R35, R37, R41). -/
def State.validGreet (s : State) (e : End) (g : GreetBody) : State :=
  let c := s.clm e
  match c.link with
  | .greeting =>
    if s.isNamed e g then (s.setClm e (c.enterJoined s.clock g.sender g.senderEnd g.generation)).linkChange
    else s.setClm e { c with candidate := some g.candidate }
  | .mute =>
    let c' := c.enterGreeting s.cu.timing (some g.candidate)
    s.setClm e { c' with slot := { c'.slot with rouse := false } }
  | .joined =>
    if c.isFromNeighbour g && s.isNamed e g then s.setClm e (c.keepAlive g)
    else s.lose e .changed (some g.candidate)
  | .fading =>
    if c.isFromNeighbour g && s.isNamed e g then s.setClm e (c.keepAlive g)
    else s.lose e .changed (some g.candidate)
  | .dark => s
  | .settling => s
  | .listen => s

/-- A GREET taken by the link monitor of its end: the body-length test of R13, the sender identity test of R26, and then the
state rules. -/
def State.greetReceipt (s : State) (e : End) (f : Frame) : State :=
  if f.payload.length < Kind.fixedBody .greet then s.take [f.discard (.port (End.toPort e)) .frameFault]
  else if validIdentity (greetBody f.payload).sender = false then s.take [f.discard (.port (End.toPort e)) .frameFault]
  else s.validGreet e (greetBody f.payload)

end Sys2Proof.Machine
end

