-- ==== Sys2Proof/Machine/Changeover.lean ====
section
/-! DEFINITION. Translation (R73), path choice (R75 to R77), re-evaluation (R116 to R120) and the enactment event (R106, R107). -/

namespace Sys2Proof.Machine

/-! ## Translation (R73, R118) -/

/-- The active position of an identity. -/
def activePosition (rs : List Record) (w : Word) : Option Nat := (recordOf rs w).map (fun r => r.position)

/-- The destination position mapped through the prior roster to an identity and through the active roster to its position; 0 stays
0. None where it is STRANDED. -/
def translateDestination (prior : List Record) (active : List Record) (d : Byte) : Option Byte :=
  if d = 0 then some 0
  else if prior.length < d.toNat then none
  else
    match recordAtPosition prior d.toNat with
    | none => none
    | some r => (activePosition active r.identity).map natByte

/-- A frame translated from a prior roster into the terms of the active roster: all three fields or none (R73). -/
def translate (prior : List Record) (active : ActiveRoster) (f : Frame) : Option Frame :=
  match translateDestination prior active.records f.dstPos, activePosition active.records f.srcId with
  | some d, some p => some { f with dstPos := d, srcPos := natByte p, generation := active.generation }
  | _, _ => none

/-! ## Path choice -/

/-- The port R76 chooses for an addressed frame that came in by `i`; none where it refuses NO_PATH. The hop limit is tested by
the caller (R77, R120). -/
def State.addressedPort (s : State) (i : Ingress) (dst dev : Byte) : Option Port :=
  match ownRecord s.ownId s.ru.active.records with
  | none => none
  | some r =>
    let d := dst.toNat
    let chosen : Option Port :=
      if d = r.position then (if dev = 0 then none else some .c)
      else if d < r.position then some (End.toPort (leadEnd r.orientation))
      else if d ≤ s.ru.active.records.length then some (End.toPort (tailEnd r.orientation))
      else none
    match chosen with
    | none => none
    | some p => if i = .port p ∨ s.portMatched p = false then none else some p

/-- What path choice gives: the ports that get a copy, in port order, and the reasons of the refused copies. -/
structure Paths where
  copies : List Port
  refusals : List Reason
  deriving DecidableEq, Repr

/-- The copy of a train-wide frame for one coupler port (R75, R77). -/
def State.trainWideVia (s : State) (arrival : Port) (hop : Byte) (e : End) : Paths :=
  if arrival = End.toPort e ∨ s.ru.standing e ≠ .matched then { copies := [], refusals := [] }
  else if hop = 0 then { copies := [], refusals := [.hopExhausted] }
  else { copies := [End.toPort e], refusals := [] }

/-- Path choice for a data frame (R75, R76, R77). -/
def State.choosePaths (s : State) (arrival : Port) (f : Frame) : Paths :=
  if f.dstPos = 0 then
    let a := s.trainWideVia arrival f.hop .a
    let b := s.trainWideVia arrival f.hop .b
    { copies := a.copies ++ b.copies ++ (if arrival = .c then [] else [.c]), refusals := a.refusals ++ b.refusals }
  else
    match s.addressedPort (.port arrival) f.dstPos f.dstDev with
    | none => { copies := [], refusals := [.noPath] }
    | some p =>
      if p ≠ .c ∧ f.hop = 0 then { copies := [], refusals := [.hopExhausted] } else { copies := [p], refusals := [] }

/-! ## Re-evaluation -/

/-- What re-evaluation decides of one queued frame before the tests of a move. -/
inductive Verdict where
  | keep (f : Frame)
  | move (p : Port) (f : Frame)
  | drop (r : Reason)
  deriving DecidableEq, Repr

/-- The port of a translated frame (R119). -/
def State.rerouted (s : State) (p : Port) (e : Entry) (f : Frame) : Verdict :=
  if f.dstPos = 0 then (if s.portMatched p then .keep f else .drop .noPath)
  else if p = .c ∧ e.localCopy = true then .keep f
  else
    match s.addressedPort e.ingress f.dstPos f.dstDev with
    | none => .drop .noPath
    | some q => if q = p then .keep f else .move q f

/-- The treatment of a queued frame of a class held on a port: flushed (R117), or translated (R118) and re-routed (R119). -/
def State.verdict (s : State) (p : Port) (c : DataClass) (e : Entry) : Verdict :=
  match s.cm.policy c with
  | .flush => .drop .flushedAtEnact
  | .reroute =>
    match s.ru.prior with
    | none => .drop .stranded
    | some pr =>
      match translate pr.records s.ru.active e.frame with
      | none => .drop .stranded
      | some f => s.rerouted p e f

/-- Whether a key already holds a cyclic slot on a port. -/
def Eqm.keyHeld (q : Eqm) (p : Port) (e : Entry) : Bool := (q.holderFor p e).isSome

/-- The tests of R120 for a move to a port; none where the frame passes. -/
def Eqm.moveRefusal (q : Eqm) (p : Port) (c : Cls) (e : Entry) : Option Reason :=
  if p ≠ .c ∧ e.frame.hop = 0 then some .hopExhausted
  else if q.keyHeld p e = true then some .overtakenReroute
  else if c.limit ≤ (q.queue p c).length then some .queueFull
  else if e.key.isSome ∧ slotCount ≤ (q.port p).slotsHeld then some .slotExhausted
  else none

/-- The key of a frame discarded OVERTAKEN_REROUTE entered in the report for the target port (R120). -/
def Eqm.noteOvertaken (q : Eqm) (r : Reason) (p : Port) (e : Entry) : Eqm :=
  match r, e.key with
  | .overtakenReroute, some k => q.enterOvertaken k p
  | _, _ => q

/-- A re-evaluation in progress: the queue manager, the frames of the present queue that keep their place (newest first), and the
discards so far (newest first). -/
structure Walk where
  eqm : Eqm
  kept : List Entry
  lost : List Discard

/-- One frame of the present queue of port `p` evaluated (R117 to R120). A discarded frame's cells go back to the pool; a moved
frame takes its cells with it and goes to the tail of its class's queue. -/
def State.evaluate (s : State) (p : Port) (c : DataClass) (w : Walk) (e : Entry) : Walk :=
  match s.verdict p c e with
  | .keep f => { w with kept := { e with frame := f } :: w.kept }
  | .drop r =>
    { w with eqm := { w.eqm with freeCells := w.eqm.freeCells + e.cells }, lost := e.discard r :: w.lost }
  | .move q f =>
    let e' : Entry := { e with frame := f }
    match w.eqm.moveRefusal q c.toCls e' with
    | some r =>
      { w with eqm := { w.eqm with freeCells := w.eqm.freeCells + e.cells }.noteOvertaken r q e',
               lost := e'.discard r :: w.lost }
    | none => { w with eqm := w.eqm.setQueue q c.toCls (w.eqm.queue q c.toCls ++ [e']) }

/-- One queue re-evaluated: its first `n` frames, those queued when the re-evaluation began, front to back; frames moved in since
are passed over and stay behind them (R116). -/
def State.evaluateQueue (s : State) (p : Port) (c : DataClass) (n : Nat) (q : Eqm) (lost : List Discard) :
    Eqm × List Discard :=
  let l := q.queue p c.toCls
  let w := (l.take n).foldl (s.evaluate p c) { eqm := q.setQueue p c.toCls (l.drop n), kept := [], lost := lost }
  (w.eqm.setQueue p c.toCls (w.kept.reverse ++ w.eqm.queue p c.toCls), w.lost)

/-- The queues of R116 in their order: port A, B, C, and C1, C2, C3 within a port. -/
def reevaluationOrder : List (Port × DataClass) :=
  [(.a, .c1), (.a, .c2), (.a, .c3), (.b, .c1), (.b, .c2), (.b, .c3), (.c, .c1), (.c, .c2), (.c, .c3)]

/-- Queues re-evaluated one after another; `start` is the queue manager when the re-evaluation began. -/
def State.evaluateQueues (s : State) (start : Eqm) : List (Port × DataClass) → Eqm → List Discard → Eqm × List Discard
  | [], q, lost => (q, lost)
  | (p, c) :: rest, q, lost =>
    let x := s.evaluateQueue p c (start.queue p c.toCls).length q lost
    s.evaluateQueues start rest x.1 x.2

/-- The re-evaluation (R116), with its discards taken in its order (R121). -/
def State.reevaluate (s : State) : State :=
  let x := s.evaluateQueues s.eqm reevaluationOrder s.eqm []
  { s with eqm := x.1 }.take x.2.reverse

/-! ## Enactment -/

/-- The changes of R106 to rosters, staging and grace. -/
def State.swapRosters (s : State) (b : StagingBody) (r : ConfirmedRecord) : State :=
  let prior : Option PriorRoster :=
    if s.ru.active.records.isEmpty then none
    else some { records := s.ru.active.records, generation := s.ru.active.generation }
  { s with
    ru := { s.ru with active := { records := b.records, generation := r.generation, context := r.context }, prior := prior
                      grace := if prior.isSome then startMs s.cu.timing.gracePeriod else none }
    su := .powerOn }

/-- The enactment (R106, R107): the rosters change, the judgements are computed anew with the cut map rebuilt, the queues are
re-evaluated and after them the standing-leave purges taken, and the notice generator is handed the outcome. A frame moved onto an idle
port begins at once, and so does the NOTICE (R161). That the NOTICE is offered after the re-evaluation and the purges is the model's
choice: R65 ("need no order between them") and R121 ("wholly before or wholly after it") leave the order open (log 22). -/
def State.enactment (s : State) (b : StagingBody) (r : ConfirmedRecord) : State :=
  let t := ((s.swapRosters b r).recompute true).reevaluate
  (((t.purgeIfLeft s.ru .a).purgeIfLeft s.ru .b).begun.handOverNotice false s.ru).begun

end Sys2Proof.Machine
end

