-- ==== Sys2Proof/Machine/Staging.lean ====
section
/-! DEFINITION. The staging commands and the check unit (05), ENACT (06 section 6.2), and the staging, fold and grace events. -/

namespace Sys2Proof.Machine

/-! ## Shared steps -/

/-- The sender may act as owner: the staging is EMPTY, or its owner equals the sender (R89 test 1). -/
def Staging.openTo (st : Staging) (sender : Word) : Bool :=
  match st.body? with
  | none => true
  | some b => b.owner == sender

/-- The owner as result data of STAGING_OWNED (R88). -/
def Staging.ownerBytes (st : Staging) : List Byte :=
  match st.body? with
  | none => []
  | some b => Word.bytes b.owner

/-- The sender is the master of the active roster (R87). -/
def State.isMaster (s : State) (sender : Word) : Bool := masterIdentity s.ru.active.records == some sender

/-- What the answer to the CONFIRM being finished needs (R84): its sender is the owner, or port C. -/
def ConfirmTicket.replyTo (t : ConfirmTicket) (owner : Word) : ReplyTo :=
  { port := t.port, sender := owner, seqTag := t.seqTag, requestTag := t.requestTag, code := Command.confirm.code }

/-- A confirmation in progress abandoned with an answer: STAGING_STATE, counted (R92, R99, R101, R103). -/
def State.answerAbandoned (s : State) : State :=
  match s.su.staging with
  | .confirming b t => s.countRefusal.answer (t.replyTo b.owner) .stagingState []
  | .empty => s
  | .filling _ => s
  | .confirmed _ _ => s

/-- The staging timer started anew (R102). -/
def State.stagingTimerStart (s : State) : Timer := startMs s.cu.timing.stagingTimeout

/-- Records held and next position, the result data of LOAD-BEGIN and LOAD-RECORDS (R88). -/
def StagingBody.progress (b : StagingBody) : List Byte := [natByte b.records.length, natByte b.nextPosition]

/-! ## LOAD-BEGIN (R89 to R92) -/

/-- The first test of R89 that fails. -/
def State.loadBeginRefusal (s : State) (m : Mode) (r : Request) : Option (ReplyCode × List Byte) :=
  if s.su.staging.openTo (Request.sender r) = false then some (.stagingOwned, s.su.staging.ownerBytes)
  else if m = .extend ∧ s.ru.active.records.isEmpty = true then some (.noActive, [])
  else if m = .extend ∧ r.port ≠ .c ∧ ¬ (s.ru.authority = .orphaned ∨ s.isMaster (Request.sender r) = true) then
    some (.notAuthorised, [])
  else none

/-- The staging a LOAD-BEGIN opens (R90, R91). -/
def State.openedBody (s : State) (m : Mode) (owner : Word) : StagingBody :=
  match m with
  | .fresh => { owner := owner, mode := .fresh, records := [], context := 0xFFFFFFFF }
  | .extend => { owner := owner, mode := .extend, records := s.ru.active.records, context := s.ru.active.context }

/-- A LOAD-BEGIN taken: a confirmation in progress is answered first, the old staging and its job go, and the new staging is
FILLING with the timer started (R90 to R92). -/
def State.beginStaging (s : State) (m : Mode) (owner : Word) : State :=
  let t := s.answerAbandoned
  { t with su := { staging := .filling (s.openedBody m owner), job := .idle, timer := s.stagingTimerStart } }

/-- The mode of the parameter field of LOAD-BEGIN (R88). -/
def modeOfParams : List Byte → Option Mode
  | [b] => if b = 0x01 then some .fresh else if b = 0x02 then some .extend else none
  | _ => none

/-- LOAD-BEGIN after the common tests. -/
def State.cmdLoadBegin (s : State) (r : Request) : State :=
  match modeOfParams r.params with
  | none => s.refuse r Command.loadBegin.code .badParameter []
  | some m =>
    match s.loadBeginRefusal m r with
    | some (o, d) => s.refuse r Command.loadBegin.code o d
    | none =>
      (s.beginStaging m (Request.sender r)).respond r Command.loadBegin.code .done
        (s.openedBody m (Request.sender r)).progress

/-! ## LOAD-RECORDS (R93 to R95) -/

/-- The record count of the parameter field of LOAD-RECORDS: 1 to 4, with 6 bytes for each record (R88). -/
def blockCount (params : List Byte) : Option Nat :=
  match params with
  | [] => none
  | b :: rest => if 1 ≤ b.toNat ∧ b.toNat ≤ 4 ∧ rest.length = 6 * b.toNat then some b.toNat else none

/-- The records of a block with, for each, whether its reserved attribute bits are 0. -/
def blockRecords (params : List Byte) (c : Nat) : List (Record × Bool) :=
  (List.range c).map fun i => (recordAt params (1 + 6 * i), reservedClear params (1 + 6 * i))

/-- The index in the block, from 1, of the first record that is not valid (R94): `next` is the position it must hold and `known`
the identities already staged or in the block before it. -/
def firstBadRecord (next : Nat) (known : List Word) (i : Nat) : List (Record × Bool) → Option Nat
  | [] => none
  | (x, ok) :: rest =>
    if x.position = next ∧ validIdentity x.identity = true ∧ known.contains x.identity = false ∧ ok = true then
      firstBadRecord (next + 1) (x.identity :: known) (i + 1) rest
    else some i

/-- The first test of R93 that fails, for a staging that is FILLING. -/
def StagingBody.loadRefusal (b : StagingBody) (job : Job) (sender : Word) (block : List (Record × Bool)) :
    Option (ReplyCode × List Byte) :=
  if b.owner ≠ sender then some (.stagingOwned, Word.bytes b.owner)
  else if job ≠ .idle then some (.busy, [])
  else if 24 < b.records.length + block.length then some (.rosterFull, [natByte b.records.length])
  else
    match firstBadRecord b.nextPosition (b.records.map (fun r => r.identity)) 1 block with
    | some i => some (.badRecord, [natByte i])
    | none => none

/-- The staging with a block appended; its fold context is the one from before the block until the fold completes (R95). -/
def StagingBody.append (b : StagingBody) (block : List (Record × Bool)) : StagingBody :=
  { b with records := b.records ++ block.map (fun x => x.1) }

/-- LOAD-RECORDS after the common tests. -/
def State.cmdLoadRecords (s : State) (r : Request) : State :=
  match blockCount r.params with
  | none => s.refuse r Command.loadRecords.code .badParameter []
  | some c =>
    match s.su.staging with
    | .filling b =>
      let block := blockRecords r.params c
      match b.loadRefusal s.su.job (Request.sender r) block with
      | some (o, d) => s.refuse r Command.loadRecords.code o d
      | none =>
        let b' := b.append block
        ({ s with su := { staging := .filling b', job := .blockFold b.context (r.params.drop 1),
                          timer := s.stagingTimerStart } }).respond r Command.loadRecords.code .done b'.progress
    | .empty => s.refuse r Command.loadRecords.code .stagingState []
    | .confirming _ _ => s.refuse r Command.loadRecords.code .stagingState []
    | .confirmed _ _ => s.refuse r Command.loadRecords.code .stagingState []

/-! ## CONFIRM (R96) -/

/-- Tests 2 to 8 of R96, for a staging that is FILLING. -/
def State.confirmRefusal (s : State) (b : StagingBody) (sender : Word) (generation : Half) (count : Nat) :
    Option (ReplyCode × List Byte) :=
  if b.owner ≠ sender then some (.stagingOwned, Word.bytes b.owner)
  else if s.su.job ≠ .idle then some (.busy, [])
  else if count ≠ b.records.length then some (.countMismatch, [])
  else if generation = 0 ∨ generation = s.ru.active.generation then some (.generationInvalid, [])
  else if (b.records.filter (fun r => r.master)).length ≠ 1 then some (.masterCount, [])
  else if (recordOf b.records s.ownId).isNone = true then some (.noSelf, [])
  else if s.ru.authority = .governed ∧ s.isMaster b.owner = false
      ∧ b.records.any (fun r => s.isMaster r.identity) = false then some (.masterAbsent, [])
  else none

/-- CONFIRM after the common tests. A CONFIRM that is taken is not answered now (R96). -/
def State.cmdConfirm (s : State) (r : Request) : State :=
  if r.params.length ≠ 7 then s.refuse r Command.confirm.code .badParameter []
  else
    match s.su.staging with
    | .filling b =>
      let g := halfAt r.params 0
      let n := (byteAt r.params 2).toNat
      match s.confirmRefusal b (Request.sender r) g n with
      | some (o, d) => s.refuse r Command.confirm.code o d
      | none =>
        { s with su :=
          { staging := .confirming b { generation := g, count := n, expected := wordAt r.params 3,
                                       requestTag := r.requestTag, seqTag := r.seqTag, port := r.port }
            job := .finish b.context (trailer g n), timer := s.stagingTimerStart } }
    | .empty => s.refuse r Command.confirm.code .stagingState []
    | .confirming _ _ => s.refuse r Command.confirm.code .stagingState []
    | .confirmed _ _ => s.refuse r Command.confirm.code .stagingState []

/-! ## DISCARD (R100, R101) -/

/-- The senders a DISCARD is taken from (R100). -/
def State.mayDiscard (s : State) (r : Request) : Bool :=
  s.su.staging.openTo (Request.sender r) || s.isMaster (Request.sender r) || r.port == .c

/-- The staging emptied: a confirmation in progress is answered first, the job abandoned, the timer stopped (R101, R103). -/
def State.emptyStaging (s : State) : State := { s.answerAbandoned with su := .powerOn }

/-- DISCARD after the common tests. -/
def State.cmdDiscard (s : State) (r : Request) : State :=
  if r.params ≠ [] then s.refuse r Command.discard.code .badParameter []
  else if s.mayDiscard r = false then s.refuse r Command.discard.code .stagingOwned s.su.staging.ownerBytes
  else s.emptyStaging.respond r Command.discard.code .done [s.su.staging.code]

/-! ## ENACT (R111, R112) -/

/-- The first test of R111 that fails, with its result data (R112). -/
def State.enactRefusal (s : State) (r : Request) : Option (ReplyCode × List Byte) :=
  if r.params.length ≠ 2 then some (.badParameter, [])
  else
    match s.su.staging with
    | .confirmed b c =>
      if halfAt r.params 0 ≠ c.generation then some (.generationMismatch, Half.bytes c.generation)
      else if r.port = .c ∨ s.isMaster (Request.sender r) = true ∨ b.owner = Request.sender r
          ∨ s.ru.authority ≠ .governed then none
      else some (.notAuthorised, [])
    | .empty => some (.notConfirmed, [Staging.code .empty])
    | .filling b => some (.notConfirmed, [Staging.code (.filling b)])
    | .confirming b t => some (.notConfirmed, [Staging.code (.confirming b t)])

/-- The enactment of the confirmed staging; nothing while the staging is not CONFIRMED (R106). -/
def State.enactConfirmed (s : State) : State :=
  match s.su.staging with
  | .confirmed b c => s.enactment b c
  | .empty => s
  | .filling _ => s
  | .confirming _ _ => s

/-- The result data of an ENACT that is taken (R112). -/
def State.enactResult (s : State) : List Byte :=
  Half.bytes s.ru.active.generation ++ [natByte s.ru.active.records.length, natByte s.ownPos, s.ru.authority.code]

/-- ENACT after the common tests. -/
def State.cmdEnact (s : State) (r : Request) : State :=
  match s.enactRefusal r with
  | some (o, d) => s.refuse r Command.enact.code o d
  | none =>
    let t := s.enactConfirmed
    t.respond r Command.enact.code .done t.enactResult

/-! ## The check unit, the staging timer and the grace timer -/

/-- The fold context written at the completion of a block fold (R85, R95). -/
def Staging.setContext (st : Staging) (w : Word) : Staging :=
  match st with
  | .empty => .empty
  | .filling b => .filling { b with context := w }
  | .confirming b t => .confirming { b with context := w } t
  | .confirmed b r => .confirmed { b with context := w } r

/-- A block fold completes (R85, R95). Without a block fold in progress the completion was discarded and changes nothing. -/
def State.blockFoldDone (s : State) : State :=
  match s.su.job with
  | .blockFold ctx input =>
    { s with su := { s.su with staging := s.su.staging.setContext (crcFold ctx input), job := .idle } }
  | .idle => s
  | .finish _ _ => s

/-- The outcome of a finish with the computed word (R97): CONFIRMED and DONE, or EMPTY and CHECK_MISMATCH. -/
def State.finishWith (s : State) (b : StagingBody) (t : ConfirmTicket) (w : Word) : State :=
  if w = t.expected then
    ({ s with su :=
      { staging := .confirmed b { generation := t.generation, count := t.count, check := w, context := b.context,
                                  owner := b.owner }
        job := .idle, timer := s.stagingTimerStart } }).answer (t.replyTo b.owner) .done (Word.bytes w)
  else ({ s with su := .powerOn }).countRefusal.answer (t.replyTo b.owner) .checkMismatch (Word.bytes w)

/-- The finish completes (R97). Without a finish in progress the completion was discarded and changes nothing (R99). -/
def State.finishDone (s : State) : State :=
  match s.su.job with
  | .finish ctx tr =>
    match s.su.staging with
    | .confirming b t => s.finishWith b t (crcFold ctx tr)
    | .empty => s
    | .filling _ => s
    | .confirmed _ _ => s
  | .idle => s
  | .blockFold _ _ => s

/-- BLOCK_FOLD_COMPLETION. -/
def execBlockFoldCompletion (s : State) : Host.Outcome State Fault Refusal := s.runs (·.blockFoldDone)

/-- FINISH_COMPLETION. -/
def execFinishCompletion (s : State) : Host.Outcome State Fault Refusal := s.runs (·.finishDone)

/-- STAGING_TIMER_EXPIRY (R103), when the staging timeout has passed. A command that restarts or stops the timer first leaves no
expiry to take (R102, R103, R109; log 3). -/
def execStagingTimerExpiry (s : State) : Host.Outcome State Fault Refusal :=
  s.runs fun s => if isDue s.su.timer then s.emptyStaging else s

/-- GRACE_TIMER_EXPIRY (R123), when the grace period has passed: the prior roster is dropped. An enactment taken first restarts or stops
the timer, and leaves no expiry to take (R109, R122; log 3). -/
def execGraceTimerExpiry (s : State) : Host.Outcome State Fault Refusal :=
  s.runs fun s => if isDue s.ru.grace then { s with ru := { s.ru with prior := none, grace := none } } else s

end Sys2Proof.Machine
end

