-- ==== Sys2Proof/Machine/Reads.lean ====
section
/-! DEFINITION. The read commands (10 section 10.7, R149): the result data and the commands after the common tests. -/

namespace Sys2Proof.Machine

/-- The report of one end in READ-STATE (R183, 18 bytes). -/
def readEnd (c : Clm) (st : Standing) : List Byte :=
  let n : Option Neighbour := if c.link.isJoined then c.neighbour else none
  [LinkState.code c.link, st.code]
    ++ (match n with
        | some n => Word.bytes n.identity ++ [n.endCode] ++ Half.bytes n.generation ++ Word.bytes n.joinedAt
        | none => List.replicate 11 0)
    ++ [c.lastChange.cause.code] ++ Word.bytes c.lastChange.clock

/-- A byte list padded with 0, or cut, to a length. -/
def padTo (n : Nat) (l : List Byte) : List Byte := (l ++ List.replicate n 0).take n

/-- The staging part of READ-STATE (R183 offsets 74 to 99, R104). -/
def readStaging (st : Staging) : List Byte :=
  [st.code]
    ++ (match st.body? with
        | some b => Word.bytes b.owner ++ [b.mode.code, natByte b.records.length] ++ Word.bytes b.context
        | none => List.replicate 10 0)
    ++ (match st.confirmed? with
        | some r => Half.bytes r.generation ++ [natByte r.count] ++ Word.bytes r.check ++ Word.bytes r.context
                      ++ Word.bytes r.owner
        | none => List.replicate 15 0)

/-- The depths of the four queues of a port. -/
def PortQueues.depths (x : PortQueues) : List Byte :=
  [natByte x.c0.length, natByte x.c1.length, natByte x.c2.length, natByte x.c3.length]

/-- The thirteen tallies in code order. -/
def Tallies.bytes (t : Tallies) : List Byte :=
  Half.bytes t.frameFault ++ Half.bytes t.staleGeneration ++ Half.bytes t.stranded ++ Half.bytes t.foreignLink
    ++ Half.bytes t.noPath ++ Half.bytes t.hopExhausted ++ Half.bytes t.ruleDiscard ++ Half.bytes t.queueFull
    ++ Half.bytes t.poolExhausted ++ Half.bytes t.slotExhausted ++ Half.bytes t.overtakenReroute
    ++ Half.bytes t.flushedAtEnact ++ Half.bytes t.linkLost

/-- The last discard record; all 0 when empty (R16, R183). -/
def readLastDiscard : Option DiscardRecord → List Byte
  | some r => [r.discard.reason.code, r.discard.ingress.code, r.discard.kind] ++ Word.bytes r.discard.source
                ++ Word.bytes r.clock
  | none => List.replicate 11 0

/-- The prior generation, 0 for none. -/
def RosterUnit.priorGeneration (u : RosterUnit) : Half :=
  match u.prior with
  | some p => p.generation
  | none => 0

/-- The 159 bytes of READ-STATE (R183). -/
def State.readResult (s : State) : List Byte :=
  Word.bytes s.ownId ++ [flagByte s.cu.loaded, s.power.code, flagByte s.rouse.wakeFlag, s.ru.authority.code]
    ++ readEnd s.clmA s.ru.standingA ++ readEnd s.clmB s.ru.standingB
    ++ Half.bytes s.ru.active.generation ++ Half.bytes s.ru.priorGeneration
    ++ [natByte s.ru.active.records.length, natByte s.ownPos, natByte s.ru.cutMap.length]
    ++ padTo 23 (s.ru.cutMap.map natByte)
    ++ readStaging s.su.staging
    ++ [s.eqm.hold.byte, s.eqm.heldInEffect.byte] ++ natHalf s.eqm.freeCells
    ++ s.eqm.portA.depths ++ s.eqm.portB.depths ++ s.eqm.portC.depths
    ++ s.discards.tallies.bytes ++ readLastDiscard s.discards.last
    ++ Half.bytes s.cu.refusals ++ Word.bytes s.clock

/-- The tallies set to 0, the discard record kept (R16, R182). -/
def State.clearTallies (s : State) : State :=
  { s with discards := { s.discards with tallies := .zero }, cu := { s.cu with refusals := 0 } }

/-- READ-STATE after the common tests (R182): option 00h reads, option 01h reads and then clears. -/
def State.cmdReadState (s : State) (r : Request) : State :=
  if r.params = [0x00] then s.respond r Command.readState.code .done s.readResult
  else if r.params = [0x01] then s.clearTallies.respond r Command.readState.code .done s.readResult
  else s.refuse r Command.readState.code .badParameter []

/-- The roster a selector names: generation and records (R184). -/
def State.selectRoster (s : State) (selector : Byte) : Option (Half × List Record) :=
  if selector = 0x01 then some (s.ru.active.generation, s.ru.active.records)
  else if selector = 0x02 then
    match s.ru.prior with
    | some p => some (p.generation, p.records)
    | none => some (0, [])
  else if selector = 0x03 then
    match s.su.staging with
    | .empty => some (0, [])
    | .filling b => some (0, b.records)
    | .confirming b t => some (t.generation, b.records)
    | .confirmed b c => some (c.generation, b.records)
  else none

/-- The result data of READ-ROSTER (R184). -/
def rosterResult (selector : Byte) (g : Half) (rs : List Record) (first count : Nat) : List Byte :=
  [selector] ++ Half.bytes g ++ [natByte rs.length]
    ++ recordImages (rs.filter (fun r => decide (first ≤ r.position) && decide (r.position < first + count)))

/-- A position or count parameter of READ-ROSTER: 1 to 24. -/
def inRosterRange (b : Byte) : Bool := decide (1 ≤ b.toNat) && decide (b.toNat ≤ 24)

/-- READ-ROSTER after the common tests. -/
def State.cmdReadRoster (s : State) (r : Request) : State :=
  match r.params with
  | [sel, first, count] =>
    match s.selectRoster sel with
    | none => s.refuse r Command.readRoster.code .badParameter []
    | some (g, rs) =>
      if inRosterRange first && inRosterRange count then
        s.respond r Command.readRoster.code .done (rosterResult sel g rs first.toNat count.toNat)
      else s.refuse r Command.readRoster.code .badParameter []
  | _ => s.refuse r Command.readRoster.code .badParameter []

/-- The 72 bytes of READ-CAPTURE (R185). -/
def captureResult : Option RouseCapture → List Byte
  | some c => [0x01] ++ natHalf c.length ++ [End.code c.arrival] ++ Word.bytes c.clock ++ padTo 64 c.bytes
  | none => List.replicate 72 0

/-- READ-CAPTURE after the common tests; reading does not empty the capture (R53). -/
def State.cmdReadCapture (s : State) (r : Request) : State :=
  if r.params = [] then s.respond r Command.readCapture.code .done (captureResult s.rouse.capture)
  else s.refuse r Command.readCapture.code .badParameter []

/-- One entry of the overtaken report (R186, 8 bytes). -/
def OvertakenEntry.image (e : OvertakenEntry) : List Byte :=
  Word.bytes e.key.identity ++ Half.bytes e.key.publication ++ [Port.code e.port, natByte e.count]

/-- The result data of READ-OVERTAKEN (R186). -/
def Eqm.overtakenResult (q : Eqm) : List Byte :=
  [flagByte q.overflow, natByte q.overtaken.length] ++ (q.overtaken.map OvertakenEntry.image).flatten

/-- READ-OVERTAKEN after the common tests: the report is returned, then emptied, whatever becomes of the response (R186). -/
def State.cmdReadOvertaken (s : State) (r : Request) : State :=
  if r.params = [] then
    ({ s with eqm := { s.eqm with overtaken := [], overflow := false } }).respond r Command.readOvertaken.code .done
      s.eqm.overtakenResult
  else s.refuse r Command.readOvertaken.code .badParameter []

/-- RULE-READ after the common tests (R149). -/
def State.cmdRuleRead (s : State) (r : Request) : State :=
  match r.params with
  | [i] =>
    match s.cm.rules[i.toNat]? with
    | some x =>
      s.respond r Command.ruleRead.code .done
        ([i] ++ x.image ++ [s.cm.policy1.code, s.cm.policy2.code, s.cm.policy3.code])
    | none => s.refuse r Command.ruleRead.code .badParameter []
  | _ => s.refuse r Command.ruleRead.code .badParameter []

end Sys2Proof.Machine
end

