-- ==== Sys2Proof/Machine/Settings.lean ====
section
/-! DEFINITION. The identity, wake, RESTART and configuration commands (10 sections 10.5, 10.6, 10.8; 08) after the common tests. -/

namespace Sys2Proof.Machine

/-- SET-IDENTITY (R177, R44): the identity is stored once, and links that are DARK with presence asserted enter SETTLING; the
response is built after the loading. -/
def State.cmdSetIdentity (s : State) (r : Request) : State :=
  if r.params.length ≠ 4 ∨ validIdentity (wordAt r.params 0) = false then
    s.refuse r Command.setIdentity.code .badParameter []
  else if s.cu.loaded then s.refuse r Command.setIdentity.code .identitySet (Word.bytes s.cu.identity)
  else
    let t := { s with cu := { s.cu with identity := wordAt r.params 0, loaded := true } }
    ((t.settleIfReady .a).settleIfReady .b).respond r Command.setIdentity.code .done (Word.bytes (wordAt r.params 0))

/-- The response to a SLEEP, with the sleep-response flag (R48, R154). -/
def State.sleepEntry (s : State) (r : Request) (flag : Bool) : Entry :=
  { controlEntry .internal (s.buildReply (Request.replyTo r Command.sleep.code) .done []) with sleepResponse := flag }

/-- SLEEP (R48, R178). The first marks the sleep pending and flags its response; if that response is refused admission the part
enters DORMANT at the refusal. A SLEEP while one is pending is answered behind the first. -/
def State.cmdSleep (s : State) (r : Request) : State :=
  if r.params ≠ [] then s.refuse r Command.sleep.code .badParameter []
  else if s.cu.sleepPending then s.offer .c .c0 (s.sleepEntry r false)
  else
    let e := s.sleepEntry r true
    let t := { s with cu := { s.cu with sleepPending := true } }.offer .c .c0 e
    if s.admits .c .c0 e then t else t.enterDormant

/-- RELEASE-WAKE (R57, R179). -/
def State.cmdReleaseWake (s : State) (r : Request) : State :=
  if r.params ≠ [] then s.refuse r Command.releaseWake.code .badParameter []
  else
    ({ s with rouse := { capture := none, wakeFlag := false } }).respond r Command.releaseWake.code .done
      [flagByte s.rouse.capture.isSome]

/-- RESTART (R180): one that is taken is not answered. -/
def State.cmdRestart (s : State) (r : Request) : State :=
  if r.params ≠ [] then s.refuse r Command.restart.code .badParameter []
  else s.restarted

/-- RULE-WRITE (R147): one rule replaced whole. -/
def State.cmdRuleWrite (s : State) (r : Request) : State :=
  if r.params.length ≠ 43 ∨ 16 ≤ (byteAt r.params 0).toNat then s.refuse r Command.ruleWrite.code .badParameter []
  else
    match ruleOfImage (r.params.drop 1) with
    | none => s.refuse r Command.ruleWrite.code .badParameter []
    | some x =>
      ({ s with cm := { s.cm with rules := s.cm.rules.set (byteAt r.params 0).toNat x } }).respond r
        Command.ruleWrite.code .done [byteAt r.params 0]

/-- The class set of the parameter field of HOLD and RELEASE (R187). -/
def classSetOfParams : List Byte → Option ClassSet
  | [b] => classSetOfByte b
  | _ => none

/-- The result data of HOLD and RELEASE: the hold set and the classes held in effect (R187). -/
def Eqm.holdResult (q : Eqm) : List Byte := [q.hold.byte, q.heldInEffect.byte]

/-- HOLD (R167, R187). -/
def State.cmdHold (s : State) (r : Request) : State :=
  match classSetOfParams r.params with
  | none => s.refuse r Command.hold.code .badParameter []
  | some c =>
    let t := { s with eqm := { s.eqm with hold := s.eqm.hold.union c } }
    t.respond r Command.hold.code .done t.eqm.holdResult

/-- RELEASE (R167, R187). An idle port with a frame of a released class begins it at once (R167), before the answer is admitted. -/
def State.cmdRelease (s : State) (r : Request) : State :=
  match classSetOfParams r.params with
  | none => s.refuse r Command.release.code .badParameter []
  | some c =>
    let t := { s with eqm := { s.eqm with hold := s.eqm.hold.diff c } }
    t.begun.respond r Command.release.code .done t.eqm.holdResult

/-- A running greet timer restarted with the period (R22, R188); a stopped one stays stopped. An expiry that is due came together with
the SET-TIMING and still "occurs as scheduled with the old interval" (R189); the timer starts with the new period at it. That R189 rules
the expiry that is due, and R21 and R22 the timer with time left, is the model's reading (log 24). -/
def Clm.restartGreet (c : Clm) (period : Nat) : Clm :=
  { c with greet := if isDue c.greet then some 0 else if c.greet.isSome then startMs period else none }

/-- A timing parameter set (R188). A greet period restarts every running greet timer at once (R22). -/
def State.setTiming (s : State) (p : Parameter) (v : Nat) : State :=
  let t := { s with cu := { s.cu with timing := s.cu.timing.set v p } }
  if p = .greetPeriod then { t with clmA := t.clmA.restartGreet v, clmB := t.clmB.restartGreet v } else t

/-- SET-TIMING (R188). -/
def State.cmdSetTiming (s : State) (r : Request) : State :=
  match r.params, parameterOfCode (byteAt r.params 0) with
  | [_, hi, lo], some p =>
    let v := (halfAt [hi, lo] 0).toNat
    if p.low ≤ v ∧ v ≤ p.high then
      (s.setTiming p v).respond r Command.setTiming.code .done (natHalf (s.cu.timing.get p))
    else s.refuse r Command.setTiming.code .badParameter []
  | _, _ => s.refuse r Command.setTiming.code .badParameter []

/-- SET-CLASS (R150). -/
def State.cmdSetClass (s : State) (r : Request) : State :=
  match r.params with
  | [c, p] =>
    match dataClassOfCode c, policyOfCode p with
    | some c, some p =>
      ({ s with cm := s.cm.setPolicy p c }).respond r Command.setClass.code .done [(s.cm.policy c).code]
    | _, _ => s.refuse r Command.setClass.code .badParameter []
  | _ => s.refuse r Command.setClass.code .badParameter []

end Sys2Proof.Machine
end

