-- ==== Sys2Proof/Machine/Requests.lean ====
section
/-! DEFINITION. The command unit: the common tests (R172, R173), the handling of a request by its code, and the meaning of every
request row (R171, log 1). -/

namespace Sys2Proof.Machine

/-- The reads (R172). -/
def Command.isRead : Command → Bool
  | .readState | .readRoster | .readCapture | .readOvertaken | .ruleRead => true
  | .setIdentity | .sleep | .releaseWake | .restart | .loadBegin | .loadRecords | .confirm | .discard | .enact | .ruleWrite
  | .hold | .release | .setTiming | .setClass => false

/-- The governing commands (R173). -/
def Command.isGoverning : Command → Bool
  | .ruleWrite | .hold | .release | .setTiming | .setClass | .restart => true
  | .setIdentity | .sleep | .releaseWake | .readState | .readRoster | .readCapture | .readOvertaken | .ruleRead
  | .loadBegin | .loadRecords | .confirm | .discard | .enact => false

/-- The staging commands (05 section 5.3). -/
def Command.isStaging : Command → Bool
  | .loadBegin | .loadRecords | .confirm | .discard | .enact => true
  | .setIdentity | .sleep | .releaseWake | .restart | .readState | .readRoster | .readCapture | .readOvertaken | .ruleRead
  | .ruleWrite | .hold | .release | .setTiming | .setClass => false

/-- The commands that accept target ALL (R172 test 2). -/
def Command.acceptsAll : Command → Bool
  | .enact | .hold | .release => true
  | .setIdentity | .sleep | .releaseWake | .restart | .readState | .readRoster | .readCapture | .readOvertaken | .ruleRead
  | .loadBegin | .loadRecords | .confirm | .discard | .ruleWrite | .setTiming | .setClass => false

/-- The commands taken on port C only (R172 test 3). -/
def Command.portCOnly : Command → Bool
  | .setIdentity | .sleep | .releaseWake => true
  | .restart | .readState | .readRoster | .readCapture | .readOvertaken | .ruleRead | .loadBegin | .loadRecords | .confirm
  | .discard | .enact | .ruleWrite | .hold | .release | .setTiming | .setClass => false

/-- Governing authority (R173). -/
def State.grants (s : State) (r : Request) : Bool :=
  r.port == .c || s.ru.authority == .lone || s.ru.authority == .orphaned || s.isMaster (Request.sender r)

/-- The first of the tests 2 to 6 of R172 that fails. -/
def State.commonRefusal (s : State) (c : Command) (r : Request) : Option ReplyCode :=
  if r.target = targetAll ∧ c.acceptsAll = false then some .targetNotPermitted
  else if c.portCOnly = true ∧ r.port ≠ .c then some .portNotPermitted
  else if s.cu.loaded = false ∧ c.portCOnly = false ∧ c.isRead = false then some .identityUnset
  else if (c.isGoverning = true ∨ c.isStaging = true) ∧ r.port ≠ .c ∧ validIdentity (Request.sender r) = false then
    some .notAuthorised
  else if c.isGoverning = true ∧ s.grants r = false then some .notAuthorised
  else none

/-- A command after the common tests. -/
def State.runCommand (s : State) (c : Command) (r : Request) : State :=
  match c with
  | .setIdentity => s.cmdSetIdentity r
  | .sleep => s.cmdSleep r
  | .releaseWake => s.cmdReleaseWake r
  | .restart => s.cmdRestart r
  | .readState => s.cmdReadState r
  | .readRoster => s.cmdReadRoster r
  | .readCapture => s.cmdReadCapture r
  | .readOvertaken => s.cmdReadOvertaken r
  | .ruleRead => s.cmdRuleRead r
  | .loadBegin => s.cmdLoadBegin r
  | .loadRecords => s.cmdLoadRecords r
  | .confirm => s.cmdConfirm r
  | .discard => s.cmdDiscard r
  | .enact => s.cmdEnact r
  | .ruleWrite => s.cmdRuleWrite r
  | .hold => s.cmdHold r
  | .release => s.cmdRelease r
  | .setTiming => s.cmdSetTiming r
  | .setClass => s.cmdSetClass r

/-- A request for a defined command handled by the command unit: refused by a common test, or run. -/
def State.handle (s : State) (c : Command) (r : Request) : State :=
  match s.commonRefusal c r with
  | some o => s.refuse r c.code o []
  | none => s.runCommand c r

/-- A request with its command code (R172 test 1). -/
def State.handleCode (s : State) (code : Byte) (r : Request) : State :=
  match commandOfCode code with
  | some c => s.handle c r
  | none => s.refuse r code .unknownCommand []

/-- The targets that are handed to the command unit (R79). -/
def State.isTarget (s : State) (p : Port) (target : Word) : Bool :=
  s.cu.isOwn target || (target == 0 && p == .c) || target == targetAll

/-- A request handed to the command unit (R171, R79). No request reaches a DORMANT part, and one with another target is not
handed over: the row then names an event that does not occur, and nothing changes (log 4). -/
def State.request (s : State) (c : Command) (r : Request) : State :=
  if s.power = .active ∧ s.isTarget r.port r.target = true then s.handle c r else s

/-- SET_IDENTITY (R177). -/
def execSetIdentity (r : Request) (s : State) : Host.Outcome State Fault Refusal := s.runs (·.request .setIdentity r)

/-- SLEEP (R48). -/
def execSleep (r : Request) (s : State) : Host.Outcome State Fault Refusal := s.runs (·.request .sleep r)

/-- RELEASE_WAKE (R57). -/
def execReleaseWake (r : Request) (s : State) : Host.Outcome State Fault Refusal := s.runs (·.request .releaseWake r)

/-- RESTART (R180). -/
def execRestart (r : Request) (s : State) : Host.Outcome State Fault Refusal := s.runs (·.request .restart r)

/-- READ_STATE (R182). -/
def execReadState (r : Request) (s : State) : Host.Outcome State Fault Refusal := s.runs (·.request .readState r)

/-- READ_STATE_CLEAR (R182): the same command, told apart by its option (log 13). -/
def execReadStateClear (r : Request) (s : State) : Host.Outcome State Fault Refusal := s.runs (·.request .readState r)

/-- READ_ROSTER (R184). -/
def execReadRoster (r : Request) (s : State) : Host.Outcome State Fault Refusal := s.runs (·.request .readRoster r)

/-- READ_CAPTURE (R185). -/
def execReadCapture (r : Request) (s : State) : Host.Outcome State Fault Refusal := s.runs (·.request .readCapture r)

/-- READ_OVERTAKEN (R186). -/
def execReadOvertaken (r : Request) (s : State) : Host.Outcome State Fault Refusal := s.runs (·.request .readOvertaken r)

/-- RULE_READ (R149). -/
def execRuleRead (r : Request) (s : State) : Host.Outcome State Fault Refusal := s.runs (·.request .ruleRead r)

/-- LOAD_BEGIN_FRESH (R90). -/
def execLoadBeginFresh (r : Request) (s : State) : Host.Outcome State Fault Refusal := s.runs (·.request .loadBegin r)

/-- LOAD_BEGIN_EXTEND (R91): the same command, told apart by its mode (log 13). -/
def execLoadBeginExtend (r : Request) (s : State) : Host.Outcome State Fault Refusal := s.runs (·.request .loadBegin r)

/-- LOAD_RECORDS (R93). -/
def execLoadRecords (r : Request) (s : State) : Host.Outcome State Fault Refusal := s.runs (·.request .loadRecords r)

/-- CONFIRM (R96). -/
def execConfirm (r : Request) (s : State) : Host.Outcome State Fault Refusal := s.runs (·.request .confirm r)

/-- DISCARD (R101). -/
def execDiscard (r : Request) (s : State) : Host.Outcome State Fault Refusal := s.runs (·.request .discard r)

/-- ENACT (R111). -/
def execEnact (r : Request) (s : State) : Host.Outcome State Fault Refusal := s.runs (·.request .enact r)

/-- RULE_WRITE (R147). -/
def execRuleWrite (r : Request) (s : State) : Host.Outcome State Fault Refusal := s.runs (·.request .ruleWrite r)

/-- HOLD (R187). -/
def execHold (r : Request) (s : State) : Host.Outcome State Fault Refusal := s.runs (·.request .hold r)

/-- RELEASE (R187). -/
def execRelease (r : Request) (s : State) : Host.Outcome State Fault Refusal := s.runs (·.request .release r)

/-- SET_TIMING (R188). -/
def execSetTiming (r : Request) (s : State) : Host.Outcome State Fault Refusal := s.runs (·.request .setTiming r)

/-- SET_CLASS (R150). -/
def execSetClass (r : Request) (s : State) : Host.Outcome State Fault Refusal := s.runs (·.request .setClass r)

/-- UNKNOWN_COMMAND (R172): a request with its code, refused where the code is not defined. -/
def execUnknownCommand (code : Byte) (r : Request) (s : State) : Host.Outcome State Fault Refusal :=
  s.runs fun s => if s.power = .active ∧ s.isTarget r.port r.target = true then s.handleCode code r else s

end Sys2Proof.Machine
end

