-- ==== Sys2Proof/Machine/Intake.lean ====
section
/-! DEFINITION. Frame intake (R11, R12), classification (08), notice receipt (R132, R133) and the rouse filter (R52, R53). -/

namespace Sys2Proof.Machine

/-! ## Classification (R139 to R146) -/

/-- What classification gives a data frame. -/
structure ClassOutcome where
  cls : DataClass
  cyclic : Bool
  localCopy : Bool
  discard : Bool
  deriving DecidableEq, Repr

/-- Whether a rule's kind set holds a kind. -/
def Rule.hasKind (r : Rule) : Kind → Bool
  | .process => r.kindProcess | .message => r.kindMessage | .bulk => r.kindBulk
  | .mgmtReq => false | .mgmtRsp => false | .notice => false | .greet => false | .rouse => false

/-- Whether a rule's ingress port set holds a port. -/
def Rule.hasPort (r : Rule) : Port → Bool
  | .a => r.portA | .b => r.portB | .c => r.portC

/-- The byte tests of a rule: every masked byte lies within header and payload and equals its match value (R140). -/
def Rule.bytesMatch (r : Rule) (body : List Byte) : Bool :=
  (List.range 32).all fun i => !r.mask.getLsbD i || (decide (i < body.length) && byteAt body i == byteAt r.values i)

/-- Whether a rule matches a frame that arrived on a port (R140). -/
def Rule.isMatch (r : Rule) (p : Port) (f : Frame) : Bool :=
  r.enabled && r.hasKind f.kind && r.hasPort p && decide (r.minLength ≤ f.length) && r.bytesMatch f.body

/-- The defaults of a data kind (R146). Control and link kinds are not classified (R139) and fall under BULK's row unused. -/
def defaultOutcome : Kind → ClassOutcome
  | .process => { cls := .c1, cyclic := true, localCopy := false, discard := false }
  | .message => { cls := .c2, cyclic := false, localCopy := false, discard := false }
  | .bulk | .mgmtReq | .mgmtRsp | .notice | .greet | .rouse =>
    { cls := .c3, cyclic := false, localCopy := false, discard := false }

/-- The outcome of a winning rule (R142). -/
def Rule.outcome (r : Rule) : ClassOutcome :=
  { cls := r.cls, cyclic := r.cyclic, localCopy := r.localCopy, discard := r.discard }

/-- Classification: the first rule that matches, or the defaults (R141, R146). -/
def ClassMatcher.classify (m : ClassMatcher) (p : Port) (f : Frame) : ClassOutcome :=
  match m.rules.find? (fun r => r.isMatch p f) with
  | some r => r.outcome
  | none => defaultOutcome f.kind

/-- The cyclic key of a frame: a PROCESS frame of a cyclic outcome has one (R142). -/
def Frame.cyclicKey (f : Frame) (o : ClassOutcome) : Option CyclicKey :=
  if f.kind = .process ∧ o.cyclic = true then some { identity := f.srcId, publication := f.tag } else none

/-! ## Data frames: stages 4 to 8 -/

/-- The queue entry of a copy of a data frame (R145). -/
def dataEntry (arrival : Port) (f : Frame) (o : ClassOutcome) (flag : Bool) : Entry :=
  { frame := f, ingress := .port arrival, key := f.cyclicKey o, localCopy := flag, sleepResponse := false }

/-- Whether the local-copy option adds a port C copy (R144). -/
def addsLocalCopy (arrival : Port) (o : ClassOutcome) (copies : List Port) : Bool :=
  o.localCopy && decide (arrival ≠ .c) && !copies.contains .c

/-- The copies of path choice offered in port order (R145, R156). -/
def State.offerCopies (s : State) (arrival : Port) (f : Frame) (o : ClassOutcome) : List Port → State
  | [] => s
  | p :: ps => (s.offer p o.cls.toCls (dataEntry arrival f o false)).offerCopies arrival f o ps

/-- Stages 6 to 8 for a data frame (R11): path choice, classification, and either RULE_DISCARD alone or the refusals of path
choice, the copies and the local copy. -/
def State.routeData (s : State) (arrival : Port) (f : Frame) : State :=
  let o := s.cm.classify arrival f
  if o.discard then s.take [f.discard (.port arrival) .ruleDiscard]
  else
    let paths := s.choosePaths arrival f
    let t := (s.take (paths.refusals.map (f.discard (.port arrival)))).offerCopies arrival f o paths.copies
    if addsLocalCopy arrival o paths.copies then t.offer .c o.cls.toCls (dataEntry arrival f o true) else t

/-- Stage 5 and on (R74): a data frame of an end that does not stand MATCHED is discarded. -/
def State.foreignCheck (s : State) (e : End) (f : Frame) : State :=
  if s.ru.standing e = .matched then s.routeData (End.toPort e) f
  else s.take [f.discard (.port (End.toPort e)) .foreignLink]

/-- Stage 4 and on (R72, R73): active generation, translation from the prior roster, or STALE_GENERATION. -/
def State.judgeGeneration (s : State) (e : End) (f : Frame) : State :=
  if f.generation = s.ru.active.generation then s.foreignCheck e f
  else
    match s.ru.prior with
    | none => s.take [f.discard (.port (End.toPort e)) .staleGeneration]
    | some pr =>
      if f.generation = pr.generation then
        match translate pr.records s.ru.active f with
        | some f' => s.foreignCheck e f'
        | none => s.take [f.discard (.port (End.toPort e)) .stranded]
      else s.take [f.discard (.port (End.toPort e)) .staleGeneration]

/-! ## Notices (R81, R132, R133, R135) -/

/-- What the severance interpretation reads of the report of one end in a NOTICE body: link state and neighbour, "and not its reported
standing" (07 section 7.4, R132). -/
structure EndReport where
  link : Byte
  neighbour : Word
  neighbourEnd : Byte
  deriving DecidableEq, Repr

/-- The report of one end at its offset in the body (R18). -/
def endReportAt (p : List Byte) (i : Nat) : EndReport :=
  { link := byteAt p i, neighbour := wordAt p (i + 2), neighbourEnd := byteAt p (i + 6) }

/-- Whether a report says JOINED or FADING: its link state alone does (R133), and an unknown link state code is read as neither (R17). An
unknown standing code is read as neither too, as every standing code is, so it takes no part (R132); that R17 asks no more of it is the
model's reading (log 21). -/
def EndReport.isJoined (x : EndReport) : Bool := x.link == 0x05 || x.link == 0x06

/-- An adjacency is an own adjacency of the car at position `p` (R133). -/
def isOwnAdjacency (p k : Nat) : Bool := k + 1 == p || k == p

/-- The report of one end of the reporter applied to the cut map: the table of R133. -/
def applyReport (own : Nat) (x : Option Expectation) (report : EndReport) (cut : List Nat) : List Nat :=
  match x with
  | none => cut
  | some x =>
    if isOwnAdjacency own x.adjacency then cut
    else if report.isJoined && x.isMet report.neighbour report.neighbourEnd then cutRemove x.adjacency cut
    else cutEnter x.adjacency cut

/-- The cut map after a NOTICE: changed only where the conditions of R132 hold. -/
def State.interpreted (s : State) (f : Frame) : List Nat :=
  if f.generation ≠ s.ru.active.generation then s.ru.cutMap
  else
    match recordOf s.ru.active.records f.srcId with
    | none => s.ru.cutMap
    | some r =>
      if f.srcId = s.ownId then s.ru.cutMap
      else
        applyReport s.ownPos (expectation s.ru.active.records r .b) (endReportAt f.payload 16)
          (applyReport s.ownPos (expectation s.ru.active.records r .a) (endReportAt f.payload 4) s.ru.cutMap)

/-- The roster unit after the severance interpretation: where the map changed, authority is recomputed (R135). -/
def State.interpret (s : State) (f : Frame) : State :=
  if s.interpreted f = s.ru.cutMap then s
  else
    { s with ru := { s.ru with cutMap := s.interpreted f
                               authority := authorityOf s.ownId s.ru.active.records (s.interpreted f) } }

/-- The copies of an arriving NOTICE: flooded, and one for port C where it came in on a coupler port (R81). -/
def State.forwardNotice (s : State) (arrival : Port) (f : Frame) : State :=
  let t := s.flood (.port arrival) f
  if arrival = .c then t else t.offer .c .c0 (controlEntry (.port arrival) f)

/-- An arriving NOTICE (R81, R135): forwarded and interpreted. Where the receipt changes authority the part emits, and whether
the forwarded copies are offered before is left open (log 8). -/
def State.receiveNotice (s : State) (arrival : Port) (f : Frame) : State :=
  let t := s.interpret f
  if t.ru.authority = s.ru.authority then t.forwardNotice arrival f
  else
    let u := { t with free := t.free + 1 }
    if Config.freeOrder s.free then (u.forwardNotice arrival f).emit else u.emit.forwardNotice arrival f

/-! ## Requests (R79) -/

/-- The request an MGMT_REQ frame carries. -/
def requestOf (arrival : Port) (f : Frame) : Request :=
  { port := arrival, source := f.srcId, seqTag := f.tag, target := wordAt f.payload 0, requestTag := halfAt f.payload 4,
    params := f.payload.drop 8 }

/-- Whether a request is an ENACT that will be taken. -/
def State.enactsNow (s : State) (code : Byte) (r : Request) : Bool :=
  code == Command.enact.code && (s.commonRefusal .enact r).isNone && (s.enactRefusal r).isNone

/-- Whether a request is a RELEASE that will be taken. -/
def State.releasesNow (s : State) (code : Byte) (r : Request) : Bool :=
  code == Command.release.code && (s.commonRefusal .release r).isNone && (classSetOfParams r.params).isSome

/-- An MGMT_REQ by its target (R79). For target ALL the hand-over and the flooding need no order; they can be told apart only
where an ENACT or a RELEASE is taken, and there the order is left open (log 8). -/
def State.receiveRequest (s : State) (arrival : Port) (f : Frame) : State :=
  let r := requestOf arrival f
  let code := byteAt f.payload 6
  if r.target = targetAll then
    if s.enactsNow code r || s.releasesNow code r then
      let u := { s with free := s.free + 1 }
      if Config.freeOrder s.free then (u.flood (.port arrival) f).handleCode code r
      else (u.handleCode code r).flood (.port arrival) f
    else (s.handleCode code r).flood (.port arrival) f
  else if s.isTarget arrival r.target then s.handleCode code r
  else s.flood (.port arrival) f

/-- Stage 6 for a control frame (R79 to R81). -/
def State.routeControl (s : State) (arrival : Port) (f : Frame) : State :=
  match f.kind with
  | .mgmtReq => s.receiveRequest arrival f
  | .mgmtRsp => s.routeResponse (.port arrival) f (wordAt f.payload 0)
  | .notice => s.receiveNotice arrival f
  | .process => s
  | .message => s
  | .bulk => s
  | .greet => s
  | .rouse => s

/-! ## The stages of an arrival -/

/-- Stage 3 (R113): a frame that bears the generation of a CONFIRMED staging enacts it. -/
def State.implicitEnactment (s : State) (f : Frame) : State :=
  match s.su.staging with
  | .confirmed b r => if f.generation = r.generation then s.enactment b r else s
  | .empty => s
  | .filling _ => s
  | .confirming _ _ => s

/-- Stages 3 and on for a data or control frame of a coupler port (R11). The enactment it may cause comes first with its whole outcome,
its NOTICE included, so the NOTICE is admitted before the copies of the frame: the model's choice, since R65 and R156 leave the order
of the two admissions open (log 23). -/
def State.afterDispatch (s : State) (e : End) (f : Frame) : State :=
  let t := s.implicitEnactment f
  if f.kind.isData then t.judgeGeneration e f else t.routeControl (End.toPort e) f

/-- Stage 2 and on (R11, R13): a GREET to its link monitor, a ROUSE discarded with no tally, a short control body discarded. -/
def State.dispatch (s : State) (e : End) (f : Frame) : State :=
  match f.kind with
  | .greet => s.greetReceipt e f
  | .rouse => s
  | .process => s.afterDispatch e f
  | .message => s.afterDispatch e f
  | .bulk => s.afterDispatch e f
  | .mgmtReq | .mgmtRsp | .notice =>
    if f.payload.length < f.kind.fixedBody then s.take [f.discard (.port (End.toPort e)) .frameFault]
    else s.afterDispatch e f

/-- The eight stages of a coupler arrival in ACTIVE (R11). -/
def State.intakeCoupler (s : State) (e : End) (bytes : List Byte) : State :=
  match parseFrame bytes with
  | none => s.take [faultOfBytes (.port (End.toPort e)) bytes]
  | some f => s.dispatch e f

/-- Stamping of a frame taken in on port C (R6). -/
def State.stamp (s : State) (f : Frame) : Frame :=
  { f with generation := s.ru.active.generation, srcPos := natByte s.ownPos, srcId := s.ownId, hop := 31 }

/-- The kinds port C may not bring (R2). -/
def Kind.isLink : Kind → Bool
  | .greet | .rouse => true
  | .process | .message | .bulk | .mgmtReq | .mgmtRsp | .notice => false

/-- The stages of an arrival on port C in ACTIVE (R12). -/
def State.intakeC (s : State) (bytes : List Byte) : State :=
  match parseFrame bytes with
  | none => s.take [faultOfBytes (.port .c) bytes]
  | some f =>
    if f.kind.isLink || decide (f.payload.length < f.kind.fixedBody) then s.take [f.discard (.port .c) .frameFault]
    else if f.kind.isData then s.routeData .c (s.stamp f)
    else s.routeControl .c (s.stamp f)

/-! ## The rouse filter -/

/-- The target of a ROUSE payload: six copies of one 4-byte value after eight bytes of 5Ah (R52). -/
def rouseTarget (p : List Byte) : Option Word :=
  if p.length < 32 then none
  else if p.take 8 ≠ List.replicate 8 0x5A then none
  else if (p.drop 8).take 24 ≠ (List.replicate 6 (Word.bytes (wordAt p 8))).flatten then none
  else some (wordAt p 8)

/-- The rouse match (R52): lengths, check word, kind, payload, and a target that is ALL or the own loaded identity. -/
def State.isRouseMatch (s : State) (bytes : List Byte) : Bool :=
  match parseFrame bytes with
  | none => false
  | some f =>
    f.kind == .rouse &&
      (match rouseTarget f.payload with
       | none => false
       | some t => t == targetAll || (t != 0 && s.cu.isOwn t))

/-- The capture of a rouse match (R53). -/
def State.captureOf (s : State) (e : End) (bytes : List Byte) : RouseCapture :=
  { bytes := bytes.take 64, length := bytes.length, arrival := e, clock := s.clock }

/-- A frame offered to the rouse filter of a DORMANT part (R52, R53): a match with the capture empty fills it, sets the wake flag
and wakes the part; anything else changes nothing. -/
def State.rouseFilter (s : State) (e : End) (bytes : List Byte) : State :=
  if s.isRouseMatch bytes && s.rouse.capture.isNone then
    ({ s with rouse := { capture := some (s.captureOf e bytes), wakeFlag := true } }).wake
  else s

/-! ## The rows -/

/-- ARRIVAL_ON_COUPLER_PORT: the stages of R11 while ACTIVE; a DORMANT part offers the frame to the rouse filter alone (log 14). -/
def execArrivalOnCouplerPort (e : End) (bytes : List Byte) (s : State) : Host.Outcome State Fault Refusal :=
  s.runs fun s => match s.power with | .active => s.intakeCoupler e bytes | .dormant => s.rouseFilter e bytes

/-- DORMANT_ARRIVAL: the rouse filter while DORMANT; in ACTIVE the frame is an arrival like any other (R53, log 14). -/
def execDormantArrival (e : End) (bytes : List Byte) (s : State) : Host.Outcome State Fault Refusal :=
  s.runs fun s => match s.power with | .dormant => s.rouseFilter e bytes | .active => s.intakeCoupler e bytes

/-- ARRIVAL_ON_PORT_C: ignored while DORMANT (R12). -/
def execArrivalOnPortC (bytes : List Byte) (s : State) : Host.Outcome State Fault Refusal :=
  s.runs fun s => match s.power with | .active => s.intakeC bytes | .dormant => s

end Sys2Proof.Machine
end

