-- ==== Sys2Proof/Machine/Lines.lean ====
section
/-! DEFINITION. WAKE-IN (R55) and power-on reset (R58). -/

namespace Sys2Proof.Machine

/-- WAKE_IN_ASSERTION: a change from negated to asserted wakes a DORMANT part and has no effect on an ACTIVE one. A level held
asserted does not act on its own (R55). -/
def execWakeInAssertion (s : State) : Host.Outcome State Fault Refusal :=
  s.runs fun s =>
    if s.lines.wakeIn then s
    else
      let t := { s with lines := { s.lines with wakeIn := true } }
      if s.power = .dormant then t.wake else t

/-- WAKE_IN_NEGATION: no effect but the level, so that a later assertion is a change again (R55). -/
def execWakeInNegation (s : State) : Host.Outcome State Fault Refusal :=
  s.runs fun s => { s with lines := { s.lines with wakeIn := false } }

/-- POWER_ON_RESET (R58). -/
def execPowerOnReset (s : State) : Host.Outcome State Fault Refusal := .next s.poweredOn

end Sys2Proof.Machine
end

