-- ==== Sys2Proof/Machine/Dispatch.lean ====
section
/-! DEFINITION. The meaning of every command, one arm per row of spec/opcode_table.json. -/

namespace Sys2Proof.Machine

def exec (i : Instr) (s : State) : Host.Outcome State Fault Refusal :=
  match i with
  | .presenceAssertion e => Sys2Proof.Machine.execPresenceAssertion e s
  | .presenceNegation e => Sys2Proof.Machine.execPresenceNegation e s
  | .wakeInAssertion => Sys2Proof.Machine.execWakeInAssertion s
  | .powerOnReset => Sys2Proof.Machine.execPowerOnReset s
  | .arrivalOnCouplerPort e bytes => Sys2Proof.Machine.execArrivalOnCouplerPort e bytes s
  | .arrivalOnPortC bytes => Sys2Proof.Machine.execArrivalOnPortC bytes s
  | .dormantArrival e bytes => Sys2Proof.Machine.execDormantArrival e bytes s
  | .settleExpiry e => Sys2Proof.Machine.execSettleExpiry e s
  | .greetExpiry e => Sys2Proof.Machine.execGreetExpiry e s
  | .answerLimitReached e => Sys2Proof.Machine.execAnswerLimitReached e s
  | .silenceLimitReached e => Sys2Proof.Machine.execSilenceLimitReached e s
  | .fadeExpiry e => Sys2Proof.Machine.execFadeExpiry e s
  | .rouseExpiry e => Sys2Proof.Machine.execRouseExpiry e s
  | .rouseBurstReached e => Sys2Proof.Machine.execRouseBurstReached e s
  | .noticeTimerExpiry => Sys2Proof.Machine.execNoticeTimerExpiry s
  | .transmissionStart p => Sys2Proof.Machine.execTransmissionStart p s
  | .transmissionCompletion p => Sys2Proof.Machine.execTransmissionCompletion p s
  | .blockFoldCompletion => Sys2Proof.Machine.execBlockFoldCompletion s
  | .finishCompletion => Sys2Proof.Machine.execFinishCompletion s
  | .stagingTimerExpiry => Sys2Proof.Machine.execStagingTimerExpiry s
  | .graceTimerExpiry => Sys2Proof.Machine.execGraceTimerExpiry s
  | .setIdentity r => Sys2Proof.Machine.execSetIdentity r s
  | .sleep r => Sys2Proof.Machine.execSleep r s
  | .releaseWake r => Sys2Proof.Machine.execReleaseWake r s
  | .restart r => Sys2Proof.Machine.execRestart r s
  | .readState r => Sys2Proof.Machine.execReadState r s
  | .readStateClear r => Sys2Proof.Machine.execReadStateClear r s
  | .readRoster r => Sys2Proof.Machine.execReadRoster r s
  | .readCapture r => Sys2Proof.Machine.execReadCapture r s
  | .readOvertaken r => Sys2Proof.Machine.execReadOvertaken r s
  | .ruleRead r => Sys2Proof.Machine.execRuleRead r s
  | .loadBeginFresh r => Sys2Proof.Machine.execLoadBeginFresh r s
  | .loadBeginExtend r => Sys2Proof.Machine.execLoadBeginExtend r s
  | .loadRecords r => Sys2Proof.Machine.execLoadRecords r s
  | .confirm r => Sys2Proof.Machine.execConfirm r s
  | .discard r => Sys2Proof.Machine.execDiscard r s
  | .enact r => Sys2Proof.Machine.execEnact r s
  | .ruleWrite r => Sys2Proof.Machine.execRuleWrite r s
  | .hold r => Sys2Proof.Machine.execHold r s
  | .release r => Sys2Proof.Machine.execRelease r s
  | .setTiming r => Sys2Proof.Machine.execSetTiming r s
  | .setClass r => Sys2Proof.Machine.execSetClass r s
  | .unknownCommand code r => Sys2Proof.Machine.execUnknownCommand code r s
  | .wakeInNegation => Sys2Proof.Machine.execWakeInNegation s

end Sys2Proof.Machine
end

