-- ==== Sys2Proof/Machine/Moments.lean ====
section
/-! DEFINITION. The part's own moments: the timer expiries that are due (R21, R102, R122, R126) and the transmissions an idle port is
due to begin (R161). No microsecond passes while one is due. -/

namespace Sys2Proof.Machine

/-- A row, if its moment has come. -/
def momentIf (b : Bool) (c : Instr) : List Instr := if b then [c] else []

/-- The expiries of one link monitor that are due. A limit row is its greet or rouse expiry (log 5). -/
def State.linkMoments (s : State) (e : End) : List Instr :=
  momentIf (isDue (s.clm e).settle) (.settleExpiry e) ++ momentIf (isDue (s.clm e).greet) (.greetExpiry e)
    ++ momentIf (isDue (s.clm e).fade) (.fadeExpiry e) ++ momentIf (isDue (s.clm e).rouse) (.rouseExpiry e)

/-- The start of a transmission is due on an idle port that has something eligible (R161: "its transmission begins at once"). -/
def State.startIsDue (s : State) (p : Port) : Bool := (s.eqm.port p).tx.isNone && (s.pick p).isSome

/-- The part's own moments that are due now. -/
def State.moments (s : State) : List Instr :=
  s.linkMoments .a ++ s.linkMoments .b ++ momentIf (isDue s.ng.timer) .noticeTimerExpiry
    ++ momentIf (isDue s.su.timer) .stagingTimerExpiry ++ momentIf (isDue s.ru.grace) .graceTimerExpiry
    ++ momentIf (s.startIsDue .a) (.transmissionStart .a) ++ momentIf (s.startIsDue .b) (.transmissionStart .b)
    ++ momentIf (s.startIsDue .c) (.transmissionStart .c)

/-- What a part with no command waiting does: it takes the one of its own moments that is due, or of several the one the free value
picks (log 25); with none due, one microsecond of the reference clock passes (log 2, log 3, log 6). -/
def State.idle (s : State) : Host.Outcome State Fault Refusal :=
  match s.moments with
  | [] => .next s.tick
  | [c] => exec c s
  | c :: d :: rest =>
    exec ((c :: d :: rest).getD (Config.freeMoment s.free % (rest.length + 2)) c) { s with free := s.free + 1 }

end Sys2Proof.Machine
end

