-- ==== Sys2Proof/Machine/Step.lean ====
section
/-! DEFINITION. One step: the command at the front of the queue; on an empty queue one of the part's own moments that is due, or one
microsecond of the reference clock. -/

namespace Sys2Proof.Machine

/-- The step: the front command is taken from the queue and run on the rest (log 17). On an empty queue the part takes a moment of its
own that is due, and with none due it idles for one microsecond of the reference clock (DESIGN CHOICE, log 2, log 3, log 6). -/
def step (s : State) : Host.Outcome State Fault Refusal :=
  match s.pending with
  | [] => s.idle
  | c :: rest => exec c { s with pending := rest }

/-- A state with the command that a word spells at the front of its queue; no word spells one (log 17). -/
def State.withFetchWord (s : State) (nbits w : Nat) : State :=
  match decodeTableWord nbits w with
  | some c => { s with pending := c :: s.pending }
  | none => s

end Sys2Proof.Machine
end

