-- ==== Sys2Proof/Safety.lean ====
section
/-! DEFINITION. What holds in every state of a safe run: the invariants of the blocks in the spec's terms, what a refused or
answered command may change, and what the part emits. -/

namespace Sys2Proof.Machine

/-! ## Requests: who may have one taken -/

/-- The command and the request of a request row (R171); none for the other rows and for an unknown command. -/
def Instr.asRequest : Instr → Option (Command × Request)
  | .setIdentity r => some (.setIdentity, r)
  | .sleep r => some (.sleep, r)
  | .releaseWake r => some (.releaseWake, r)
  | .restart r => some (.restart, r)
  | .readState r => some (.readState, r)
  | .readStateClear r => some (.readState, r)
  | .readRoster r => some (.readRoster, r)
  | .readCapture r => some (.readCapture, r)
  | .readOvertaken r => some (.readOvertaken, r)
  | .ruleRead r => some (.ruleRead, r)
  | .loadBeginFresh r => some (.loadBegin, r)
  | .loadBeginExtend r => some (.loadBegin, r)
  | .loadRecords r => some (.loadRecords, r)
  | .confirm r => some (.confirm, r)
  | .discard r => some (.discard, r)
  | .enact r => some (.enact, r)
  | .ruleWrite r => some (.ruleWrite, r)
  | .hold r => some (.hold, r)
  | .release r => some (.release, r)
  | .setTiming r => some (.setTiming, r)
  | .setClass r => some (.setClass, r)
  | .presenceAssertion _ | .presenceNegation _ | .wakeInAssertion | .wakeInNegation | .powerOnReset
  | .arrivalOnCouplerPort _ _ | .arrivalOnPortC _ | .dormantArrival _ _ | .settleExpiry _ | .greetExpiry _
  | .answerLimitReached _ | .silenceLimitReached _ | .fadeExpiry _ | .rouseExpiry _ | .rouseBurstReached _
  | .noticeTimerExpiry | .transmissionStart _ | .transmissionCompletion _ | .blockFoldCompletion | .finishCompletion
  | .stagingTimerExpiry | .graceTimerExpiry | .unknownCommand _ _ => none

/-- A request is handed to the command unit of an ACTIVE part (R171, R79). -/
def State.hands (s : State) (r : Request) : Prop :=
  s.power = .active
    ∧ ((s.cu.loaded = true ∧ r.target = s.cu.identity) ∨ (r.target = 0 ∧ r.port = .c) ∨ r.target = targetAll)

/-- The sender is the master identity of the active roster (R59, R87). -/
def State.sentByMaster (s : State) (r : Request) : Prop :=
  masterIdentity s.ru.active.records = some (Request.sender r)

/-- Governing authority (R173): port C, LONE, ORPHANED, or the master. -/
def State.governs (s : State) (r : Request) : Prop :=
  r.port = .c ∨ s.ru.authority = .lone ∨ s.ru.authority = .orphaned ∨ s.sentByMaster r

/-- The commands that accept target ALL (R172 test 2). -/
def forAll : List Command := [.enact, .hold, .release]

/-- The commands taken on port C alone (R172 test 3). -/
def portCCommands : List Command := [.setIdentity, .sleep, .releaseWake]

/-- The reads (R172). -/
def reads : List Command := [.readState, .readRoster, .readCapture, .readOvertaken, .ruleRead]

/-- The governing commands (R173). -/
def governing : List Command := [.ruleWrite, .hold, .release, .setTiming, .setClass, .restart]

/-- The staging commands (05 section 5.3). -/
def stagingCommands : List Command := [.loadBegin, .loadRecords, .confirm, .discard, .enact]

/-- Test 2 of R172. -/
def Request.passesTarget (r : Request) (c : Command) : Prop := r.target = targetAll → c ∈ forAll

/-- Test 3 of R172. -/
def Request.passesPort (r : Request) (c : Command) : Prop := c ∈ portCCommands → r.port = .c

/-- Test 4 of R172. -/
def State.passesIdentity (s : State) (c : Command) : Prop := s.cu.loaded = true ∨ c ∈ portCCommands ∨ c ∈ reads

/-- Test 5 of R172. -/
def Request.passesSender (r : Request) (c : Command) : Prop :=
  c ∈ governing ∨ c ∈ stagingCommands → r.port = .c ∨ (r.source ≠ 0 ∧ r.source ≠ 0xFFFFFFFF)

/-- Test 6 of R172. -/
def State.passesAuthority (s : State) (c : Command) (r : Request) : Prop := c ∈ governing → s.governs r

/-- A request reaches the command unit and passes the common tests (R172). -/
def State.passes (s : State) (c : Command) (r : Request) : Prop :=
  s.hands r ∧ Request.passesTarget r c ∧ Request.passesPort r c ∧ s.passesIdentity c ∧ Request.passesSender r c
    ∧ s.passesAuthority c r

/-- The parameter fields each command refuses (R88, R111, R147, R149, R150, R177 to R188). -/
def badParams : Command → List Byte → Prop
  | .setIdentity, p => p.length ≠ 4 ∨ wordAt p 0 = 0 ∨ wordAt p 0 = 0xFFFFFFFF
  | .sleep, p | .releaseWake, p | .restart, p | .readCapture, p | .readOvertaken, p | .discard, p => p ≠ []
  | .readState, p => p ≠ [0x00] ∧ p ≠ [0x01]
  | .readRoster, p =>
    ¬ ∃ sel first count, p = [sel, first, count] ∧ (sel = 0x01 ∨ sel = 0x02 ∨ sel = 0x03)
        ∧ 1 ≤ first.toNat ∧ first.toNat ≤ 24 ∧ 1 ≤ count.toNat ∧ count.toNat ≤ 24
  | .ruleRead, p => ¬ ∃ i : Byte, p = [i] ∧ i.toNat ≤ 15
  | .loadBegin, p => p ≠ [0x01] ∧ p ≠ [0x02]
  | .loadRecords, p => ¬ ∃ (c : Byte) (l : List Byte), p = c :: l ∧ 1 ≤ c.toNat ∧ c.toNat ≤ 4 ∧ l.length = 6 * c.toNat
  | .confirm, p => p.length ≠ 7
  | .enact, p => p.length ≠ 2
  | .ruleWrite, p =>
    p.length ≠ 43 ∨ 15 < (byteAt p 0).toNat ∨ byteAt p 4 &&& 0x03#8 = 0 ∨ (halfAt p 5).toNat < 20 ∨ 1020 < (halfAt p 5).toNat
  | .hold, p | .release, p => ¬ ∃ b : Byte, p = [b] ∧ b &&& 0xF1#8 = 0
  | .setTiming, p =>
    p.length ≠ 3 ∨ ∀ x, parameterOfCode (byteAt p 0) = some x → (halfAt p 1).toNat < x.low ∨ x.high < (halfAt p 1).toNat
  | .setClass, p =>
    ¬ ∃ c q : Byte, p = [c, q] ∧ (c = 0x01 ∨ c = 0x02 ∨ c = 0x03) ∧ (q = 0x01 ∨ q = 0x02)

/-! ## What READ-STATE shows -/

/-- The report of one end at an offset of the result data (R183). -/
def Clm.readsAs (c : Clm) (st : Standing) (d : List Byte) (i : Nat) : Prop :=
  byteAt d i = LinkState.code c.link ∧ byteAt d (i + 1) = st.code
    ∧ (c.link.isJoined = false ∨ c.neighbour = none → ∀ j, j < 11 → byteAt d (i + 2 + j) = 0)
    ∧ (∀ n, c.link.isJoined = true → c.neighbour = some n →
        wordAt d (i + 2) = n.identity ∧ byteAt d (i + 6) = n.endCode ∧ halfAt d (i + 7) = n.generation
          ∧ wordAt d (i + 9) = n.joinedAt)
    ∧ byteAt d (i + 13) = c.lastChange.cause.code ∧ wordAt d (i + 14) = c.lastChange.clock

/-- The staging in the result data (R183 offsets 74 to 99). -/
def Staging.readsAs (st : Staging) (d : List Byte) : Prop :=
  byteAt d 74 = st.code
    ∧ (st.body? = none → ∀ j, j < 10 → byteAt d (75 + j) = 0)
    ∧ (∀ b, st.body? = some b →
        wordAt d 75 = b.owner ∧ byteAt d 79 = b.mode.code ∧ byteAt d 80 = natByte b.records.length ∧ wordAt d 81 = b.context)
    ∧ (st.confirmed? = none → ∀ j, j < 15 → byteAt d (85 + j) = 0)
    ∧ ∀ r, st.confirmed? = some r →
        halfAt d 85 = r.generation ∧ byteAt d 87 = natByte r.count ∧ wordAt d 88 = r.check ∧ wordAt d 92 = r.context
          ∧ wordAt d 96 = r.owner

/-- The last discard record in the result data (R183 offsets 142 to 152). -/
def DiscardLog.readsAs (l : DiscardLog) (d : List Byte) : Prop :=
  (∀ r : Reason, halfAt d (114 + 2 * r.code.toNat) = l.tallies.get r)
    ∧ (l.last = none → ∀ j, j < 11 → byteAt d (142 + j) = 0)
    ∧ ∀ r, l.last = some r →
        byteAt d 142 = r.discard.reason.code ∧ byteAt d 143 = r.discard.ingress.code ∧ byteAt d 144 = r.discard.kind
          ∧ wordAt d 145 = r.discard.source ∧ wordAt d 149 = r.clock

/-- The table of R183, offset by offset. -/
def State.readsAs (s : State) (d : List Byte) : Prop :=
  d.length = 159
    ∧ wordAt d 0 = (if s.cu.loaded then s.cu.identity else 0) ∧ byteAt d 4 = (if s.cu.loaded then 0x01 else 0x00)
    ∧ byteAt d 5 = s.power.code ∧ byteAt d 6 = (if s.rouse.wakeFlag then 0x01 else 0x00) ∧ byteAt d 7 = s.ru.authority.code
    ∧ s.clmA.readsAs s.ru.standingA d 8 ∧ s.clmB.readsAs s.ru.standingB d 26
    ∧ halfAt d 44 = s.ru.active.generation ∧ (s.ru.prior = none → halfAt d 46 = 0)
    ∧ (∀ p, s.ru.prior = some p → halfAt d 46 = p.generation)
    ∧ byteAt d 48 = natByte s.ru.active.records.length ∧ byteAt d 49 = natByte s.ownPos
    ∧ byteAt d 50 = natByte s.ru.cutMap.length
    ∧ (∀ j, j < 23 → byteAt d (51 + j) = natByte (s.ru.cutMap.getD j 0))
    ∧ s.su.staging.readsAs d
    ∧ byteAt d 100 = s.eqm.hold.byte ∧ byteAt d 101 = s.eqm.heldInEffect.byte
    ∧ halfAt d 102 = BitVec.ofNat 16 s.eqm.freeCells
    ∧ (d.drop 104).take 12
        = [(.a, .c0), (.a, .c1), (.a, .c2), (.a, .c3), (.b, .c0), (.b, .c1), (.b, .c2), (.b, .c3), (.c, .c0), (.c, .c1), (.c, .c2),
            (.c, .c3)].map (fun (x : Port × Cls) => natByte (s.eqm.queue x.1 x.2).length)
    ∧ s.discards.readsAs d
    ∧ halfAt d 153 = s.cu.refusals ∧ wordAt d 155 = s.clock

/-! ## Arrivals -/

/-- A sequence of received bytes that fails a test of R9. -/
def FailsChecks (bytes : List Byte) : Prop :=
  bytes.length < 20 ∨ 1020 < bytes.length ∨ (halfAt bytes 14).toNat + 20 ≠ bytes.length
    ∨ checkWord (bytes.take (bytes.length - 4)) ≠ wordAt bytes (bytes.length - 4)
    ∨ byteAt bytes 0 ∉ [0x01#8, 0x02, 0x03, 0x08, 0x09, 0x0A, 0x0C, 0x0D]

/-- The state with one discard taken: its tally raised, saturating, and the last discard record written (R14, R15). -/
def State.lost (s : State) (r : Reason) (i : Ingress) (kind : Byte) (source : Word) : State :=
  { s with discards :=
    { tallies := s.discards.tallies.raise r
      last := some { discard := { reason := r, ingress := i, kind := kind, source := source }, clock := s.clock } } }

/-- The rouse match of R52. -/
def RouseMatches (s : State) (bytes : List Byte) : Prop :=
  ∃ (f : Frame) (w : Word), parseFrame bytes = some f ∧ f.kind = .rouse ∧ 32 ≤ f.payload.length
    ∧ f.payload.take 8 = List.replicate 8 0x5A
    ∧ (f.payload.drop 8).take 24 = (List.replicate 6 (Word.bytes w)).flatten
    ∧ (w = targetAll ∨ (w ≠ 0 ∧ s.cu.loaded = true ∧ w = s.cu.identity))

/-- The staging is not CONFIRMED under a generation (R113): a frame that bears it enacts nothing. -/
def State.enactsNothing (s : State) (g : Half) : Prop := ∀ b r, s.su.staging = .confirmed b r → r.generation ≠ g

/-- The translation of R73 from a prior into an active roster with its generation. -/
def Translates (prior active : List Record) (g : Half) (f f' : Frame) : Prop :=
  ∃ own d, recordOf active f.srcId = some own
    ∧ ((f.dstPos = 0 ∧ d = 0)
        ∨ ∃ x y, f.dstPos ≠ 0 ∧ f.dstPos.toNat ≤ prior.length ∧ recordAtPosition prior f.dstPos.toNat = some x
            ∧ recordOf active x.identity = some y ∧ d = natByte y.position)
    ∧ f' = { f with dstPos := d, srcPos := natByte own.position, generation := g }

/-! ## What a link change, waking and sleeping leave -/

/-- The state of a link monitor with nothing running and nothing recorded but the last-change capture (R29, R46). -/
def Clm.rest (l : LinkState) (settle : Timer) (last : LastChange) : Clm :=
  { link := l, settle := settle, greet := none, fade := none, rouse := none, answerCount := 0, silenceCount := 0,
    rouseCount := 0, greetHeard := false, neighbour := none, candidate := none, lastChange := last,
    slot := { greet := false, rouse := false } }

/-- A link monitor right after entry to DARK: DARK, or SETTLING where presence is asserted and the identity loaded (R29, R30). -/
def State.darkened (s : State) (e : End) (last : LastChange) : Clm :=
  if s.presence e = true ∧ s.cu.loaded = true then .rest .settling (startMs s.cu.timing.settleTime) last
  else .rest .dark none last

/-- What an own end expects. -/
def State.expects (s : State) (e : End) : Option Expectation := ownExpectation s.ownId s.ru.active.records e

/-- An adjacency that an own end faces (R68). -/
def State.facesAdjacency (s : State) (e : End) (k : Nat) : Prop := ∃ x, s.expects e = some x ∧ x.adjacency = k

/-- The judgements of a state are those of its links, roster and cut map (R64, R67, R70), and the cut map holds, of the own
adjacencies, those whose end does not stand MATCHED, and of the others those that `other` holds (R68). -/
def State.judgedFrom (t : State) (other : Nat → Prop) : Prop :=
  (∀ e, t.ru.standing e = standingOf (t.clm e) (t.expects e))
    ∧ (∀ k, k ∈ t.ru.cutMap ↔
        (∃ e, t.facesAdjacency e k ∧ t.ru.standing e ≠ .matched) ∨ ((∀ e, ¬ t.facesAdjacency e k) ∧ other k))
    ∧ t.ru.authority = authorityOf t.ownId t.ru.active.records t.ru.cutMap
    ∧ t.ng.settled = settledOf t.ru.standingA t.ru.standingB

/-- R56: `t` is `s` woken. The rouse capture is that of `s`; nothing else of `s` changes. -/
def Woken (s t : State) : Prop :=
  t = { s with power := .active, clmA := s.darkened .a s.clmA.lastChange, clmB := s.darkened .b s.clmB.lastChange,
               ru := t.ru, ng := t.ng, eqm := (s.eqm.abandonLinkControl .a).abandonLinkControl .b }
    ∧ t.ru.active = s.ru.active ∧ t.ru.prior = s.ru.prior ∧ t.ru.grace = s.ru.grace
    ∧ t.judgedFrom (fun _ => False)
    ∧ t.ng.timer = (if t.ng.settled then none else startMs s.cu.timing.noticeInterval)

/-- R46, R48 to R51: `t` is `s` gone to sleep. -/
def Slept (s t : State) : Prop :=
  t = { s with power := .dormant, clmA := .rest .listen none s.clmA.lastChange, clmB := .rest .listen none s.clmB.lastChange,
               ru := t.ru, ng := t.ng, su := { staging := .empty, job := .idle, timer := none },
               eqm := { freeCells := 768, portA := .empty, portB := .empty, portC := .empty, overtaken := s.eqm.overtaken,
                        overflow := s.eqm.overflow, hold := s.eqm.hold },
               cu := { s.cu with sleepPending := false } }
    ∧ t.ru.active = s.ru.active ∧ t.ru.prior = none ∧ t.ru.grace = none
    ∧ t.judgedFrom (fun _ => False)
    ∧ t.ng.timer = none

/-! ## The NOTICE a part emits -/

/-- The report of one end in a NOTICE (R128): link state, standing, neighbour while JOINED or FADING, loss cause and clock. -/
def Clm.noticeReport (c : Clm) (st : Standing) : List Byte :=
  [LinkState.code c.link, st.code]
    ++ (if c.link.isJoined then
          (match c.neighbour with | some n => Word.bytes n.identity ++ [n.endCode] | none => [0, 0, 0, 0, 0])
        else [0, 0, 0, 0, 0])
    ++ [c.lastChange.cause.code] ++ Word.bytes c.lastChange.clock

/-- The NOTICE of this moment (R7, R128). -/
def State.noticeFrame (s : State) : Frame :=
  { kind := .notice, hop := 31, generation := s.ru.active.generation, dstPos := 0, dstDev := 0, srcPos := natByte s.ownPos
    srcDev := 0, srcId := s.ownId, tag := 0
    payload := [s.ru.authority.code, 0]
      ++ Half.bytes (match s.su.staging with | .confirmed _ r => r.generation | _ => 0)
      ++ s.clmA.noticeReport s.ru.standingA ++ s.clmB.noticeReport s.ru.standingB }

/-- One emission (R129, R130): a copy for each coupler port whose link is JOINED or FADING and one for port C, in port order, and the
notice timer stopped when settled, else started anew, but for an expiry that is due: that one is still taken (log 26). -/
def State.announced (s : State) : State :=
  let x := controlEntry .internal s.noticeFrame
  let s1 := if s.clmA.link.isJoined then s.offer .a .c0 x else s
  let s2 := if s.clmB.link.isJoined then s1.offer .b .c0 x else s1
  { s2.offer .c .c0 x with
    ng := { settled := s.ng.settled
            timer := if s.ng.settled then none
                     else if s.ng.timer = some 0 then some 0 else startMs s.cu.timing.noticeInterval } }

/-! ## The arbiters -/

/-- Nothing eligible waits at an idle port: every start that was due has been made (R161). -/
def State.served (s : State) : Prop := ∀ p, (s.eqm.port p).tx = none → s.pick p = none

/-! ## Path choice in the spec's terms -/

/-- R76 chooses port `q` for an addressed frame that came in by `i`: the own position with a device, or the coupler port that faces
the destination, its end MATCHED, and not the port it came in by. -/
def State.chooses (s : State) (i : Ingress) (dst dev : Byte) (q : Port) : Prop :=
  ∃ own, recordOf s.ru.active.records s.ownId = some own ∧ i ≠ .port q
    ∧ ((dst.toNat = own.position ∧ dev ≠ 0 ∧ q = .c)
        ∨ ∃ e, q = End.toPort e ∧ s.ru.standing e = .matched
            ∧ ((dst.toNat < own.position ∧ e = leadEnd own.orientation)
                ∨ (own.position < dst.toNat ∧ dst.toNat ≤ s.ru.active.records.length ∧ e = tailEnd own.orientation)))

/-- The queued frame a port sends, as a list. -/
def PortQueues.sent (x : PortQueues) : List Entry :=
  match x.tx with
  | some { item := .queued _ e, bytes := _ } => [e]
  | _ => []

/-- No copy queued on a port holds the slot of a key (R157). -/
def Eqm.keyFree (q : Eqm) (p : Port) (k : CyclicKey) : Prop := ∀ c, ∀ x ∈ q.queue p c, x.key ≠ some k

/-! ## The egress queues -/

/-- R152: "The cells held by queued frames and by frames in transmission, plus the free cells, always number 768." -/
def CellsConserved (s : State) : Prop := s.eqm.freeCells + s.eqm.heldCells = 768

/-- R154: no queue holds more frames than its class limit. -/
def QueuesBounded (s : State) : Prop := ∀ p c, (s.eqm.queue p c).length ≤ c.limit

/-- The cyclic keys of the queued frames of a port. -/
def PortQueues.keys (x : PortQueues) : List CyclicKey := x.entries.filterMap (fun e => e.key)

/-- R157: a port holds at most 64 cyclic slots, no two with the same key. -/
def SlotsSound (s : State) : Prop := ∀ p, (s.eqm.port p).keys.length ≤ 64 ∧ (s.eqm.port p).keys.Nodup

/-- R160: at most 16 entries, no two with the same key and port, counts from 1 to 255. -/
def OvertakenSound (s : State) : Prop :=
  s.eqm.overtaken.length ≤ 16 ∧ (s.eqm.overtaken.map (fun e => (e.key, e.port))).Nodup
    ∧ ∀ e ∈ s.eqm.overtaken, 1 ≤ e.count ∧ e.count ≤ 255

/-- A coupler port whose link is not JOINED or FADING has no queued frame and sends none (R155, R165), and one whose end does not
stand MATCHED has none in C1 to C3 (R162: "The purges of section 9.7 and test 2 of R155 keep the C1 to C3 queues of a coupler port
empty while its end stands otherwise."). -/
def CouplerQueues (s : State) : Prop :=
  ∀ e : End,
    (((s.clm e).link.isJoined = false) →
      (s.eqm.port (End.toPort e)).entries = [] ∧ ∀ c x b, (s.eqm.port (End.toPort e)).tx ≠ some ⟨.queued c x, b⟩)
    ∧ (s.ru.standing e ≠ .matched → ∀ c, c ≠ .c0 → s.eqm.queue (End.toPort e) c = [])

/-! ## The coupler links -/

/-- The table of R19: which timers run and which records are present in each link state, with the slot of R27. -/
def Clm.Sound (c : Clm) : Prop :=
  (c.settle.isSome = true ↔ c.link = .settling)
    ∧ (c.greet.isSome = true ↔ c.link = .greeting ∨ c.link = .mute ∨ c.link.isJoined = true)
    ∧ (c.fade.isSome = true ↔ c.link = .fading)
    ∧ (c.rouse.isSome = true → c.link = .mute)
    ∧ (c.neighbour.isSome = true ↔ c.link.isJoined = true)
    ∧ (c.candidate.isSome = true → c.link = .greeting ∨ c.link = .mute)
    ∧ (c.slot.greet = true → c.greet.isSome = true)
    ∧ (c.slot.rouse = true → c.link = .mute)

/-- R20, R29, R30, R39, R40: what each link state says of the presence level and the identity of its end. -/
def PresenceAgrees (l : LinkState) (presence loaded : Bool) : Prop :=
  match l with
  | .dark => ¬ (presence = true ∧ loaded = true)
  | .settling | .greeting | .mute | .joined => presence = true ∧ loaded = true
  | .fading => presence = false ∧ loaded = true
  | .listen => True

/-- Both links as R19 and R29 say. -/
def LinksSound (s : State) : Prop :=
  ∀ e, (s.clm e).Sound ∧ PresenceAgrees (s.clm e).link (s.presence e) s.cu.loaded

/-- R22, R188: every timing parameter lies in its range. -/
def TimingInRange (t : Timing) : Prop := ∀ p : Parameter, p.low ≤ t.get p ∧ t.get p ≤ p.high

/-- R19: the answer count runs from 0 to 100, the silence count from 0 to 15 and the rouse count from 0 to 255; and while a count
can still rise it is below its bound (R33, R34, R38). -/
def CountsInRange (s : State) : Prop :=
  TimingInRange s.cu.timing
    ∧ ∀ e, (s.clm e).answerCount ≤ 100 ∧ ((s.clm e).link = .greeting → (s.clm e).answerCount < 100)
        ∧ (s.clm e).silenceCount ≤ 15 ∧ ((s.clm e).link.isJoined = true → (s.clm e).silenceCount < 15)
        ∧ (s.clm e).rouseCount ≤ 255 ∧ ((s.clm e).rouse.isSome = true → (s.clm e).rouseCount < 255)

/-! ## Dormancy -/

/-- R54: "the flag is set exactly while the capture is occupied." -/
def WakeLatched (s : State) : Prop := s.rouse.wakeFlag = s.rouse.capture.isSome

/-- R46, R49, R50, R131: a DORMANT part listens on both links, its queues are empty and it sends nothing, its staging is EMPTY,
its prior roster is gone, its notice timer is stopped and no sleep is pending; only a DORMANT part is in LISTEN. -/
def DormantQuiet (s : State) : Prop :=
  (s.power = .dormant →
    (∀ e, (s.clm e).link = .listen)
      ∧ s.eqm.freeCells = 768 ∧ (∀ p, s.eqm.port p = PortQueues.empty)
      ∧ s.su = StagingUnit.powerOn ∧ s.ru.prior = none ∧ s.ru.grace = none ∧ s.ng.timer = none ∧ s.cu.sleepPending = false)
    ∧ ∀ e, (s.clm e).link = .listen → s.power = .dormant

/-- Whether a port sends a frame with the sleep-response flag. -/
def PortQueues.sendsSleep (x : PortQueues) : Bool :=
  match x.tx with
  | some { item := .queued _ e, bytes := _ } => e.sleepResponse
  | _ => false

/-- R48, R154: a sleep is pending exactly while one copy with the sleep-response flag waits in C0 of port C or is sent there, and no
other copy bears the flag. -/
def SleepCarried (s : State) : Prop :=
  (s.eqm.portC.c0.filter (fun e => e.sleepResponse)).length + s.eqm.portC.sendsSleep.toNat = s.cu.sleepPending.toNat
    ∧ (∀ p c, ∀ x ∈ s.eqm.queue p c, x.sleepResponse = true → p = .c ∧ c = .c0 ∧ x.key = none)
    ∧ s.eqm.portA.sendsSleep = false ∧ s.eqm.portB.sendsSleep = false

/-! ## The judgements of the roster unit -/

/-- R87, R177: every staging command needs the identity, so an unloaded part has no roster and no staging. -/
def IdentityGuards (s : State) : Prop :=
  s.cu.loaded = false → s.ru.active.records = [] ∧ s.ru.prior = none ∧ s.su.staging = .empty

/-- R64, R67, R70: standing, authority and settledness are what the links, the roster and the cut map give. -/
def Judged (s : State) : Prop :=
  (∀ e, s.ru.standing e = standingOf (s.clm e) (ownExpectation s.ownId s.ru.active.records e))
    ∧ s.ru.authority = authorityOf s.ownId s.ru.active.records s.ru.cutMap
    ∧ s.ng.settled = settledOf s.ru.standingA s.ru.standingB

/-- R68: the cut map is a set of adjacencies from 1 to N-1, kept as an increasing list, and an own adjacency is present exactly while
the end that faces it does not stand MATCHED. -/
def CutMapSound (s : State) : Prop :=
  s.ru.cutMap.Pairwise (· < ·) ∧ (∀ k ∈ s.ru.cutMap, 1 ≤ k ∧ k < s.ru.active.records.length)
    ∧ ∀ e x, s.expects e = some x → (x.adjacency ∈ s.ru.cutMap ↔ s.ru.standing e ≠ .matched)

/-! ## Rosters and staging -/

/-- R59, R60, R84: positions 1 to N in order, identities valid and distinct, at most 24 records. -/
def RecordsSound (rs : List Record) : Prop :=
  rs.length ≤ 24 ∧ rs.map (fun r => r.position) = List.range' 1 rs.length
    ∧ (rs.map (fun r => r.identity)).Nodup ∧ ∀ r ∈ rs, r.identity ≠ 0 ∧ r.identity ≠ 0xFFFFFFFF

/-- The fold context of a list of records: the check register after folding their images (R8, R60, R86). -/
def foldContext (rs : List Record) : Word := checkWord (recordImages rs)

/-- R60: a non-empty roster has one master mark, names the own car and bears a generation that is not 0. -/
def RosterFit (own : Word) (rs : List Record) (g : Half) : Prop :=
  RecordsSound rs ∧ rs ≠ [] ∧ (rs.filter (fun r => r.master)).length = 1 ∧ (∃ r ∈ rs, r.identity = own) ∧ g ≠ 0

/-- R60: the active roster is empty with generation 0, or fit; with its fold context. -/
def ActiveSound (s : State) : Prop :=
  s.ru.active.context = foldContext s.ru.active.records
    ∧ ((s.ru.active.records = [] ∧ s.ru.active.generation = 0)
        ∨ RosterFit s.ownId s.ru.active.records s.ru.active.generation)

/-- R61, R122: a prior roster exists exactly while the grace timer runs, and its generation is not the active one. -/
def PriorSound (s : State) : Prop :=
  s.ru.grace.isSome = s.ru.prior.isSome
    ∧ ∀ p, s.ru.prior = some p → p.generation ≠ s.ru.active.generation ∧ RosterFit s.ownId p.records p.generation

/-- The table of R84 with R85, R95 and R97: records, fold context, job and timer of each staging state. The confirmed check word is
that of the staged roster (R86). -/
def StagingSound (s : State) : Prop :=
  match s.su.staging with
  | .empty => s.su.job = .idle ∧ s.su.timer = none
  | .filling b =>
    s.su.timer.isSome = true ∧ RecordsSound b.records
      ∧ ((s.su.job = .idle ∧ b.context = foldContext b.records)
          ∨ ∃ input, s.su.job = .blockFold b.context input ∧ crcFold b.context input = foldContext b.records)
  | .confirming b t =>
    s.su.timer.isSome = true ∧ s.su.job = .finish b.context (trailer t.generation t.count)
      ∧ b.context = foldContext b.records ∧ t.count = b.records.length
      ∧ RosterFit s.ownId b.records t.generation ∧ t.generation ≠ s.ru.active.generation
  | .confirmed b r =>
    s.su.timer.isSome = true ∧ s.su.job = .idle
      ∧ b.context = foldContext b.records ∧ r.context = b.context ∧ r.owner = b.owner ∧ r.count = b.records.length
      ∧ r.check = rosterCheckWord b.records r.generation r.count
      ∧ RosterFit s.ownId b.records r.generation ∧ r.generation ≠ s.ru.active.generation

/-- The rosters and the staging of a part, with what guards them. -/
def RostersSound (s : State) : Prop := IdentityGuards s ∧ ActiveSound s ∧ PriorSound s ∧ StagingSound s

/-- R137: sixteen rules with 32 match values each and a minimum length from 20 to 1,020. -/
def RulesSound (s : State) : Prop :=
  s.cm.rules.length = 16 ∧ ∀ r ∈ s.cm.rules, r.values.length = 32 ∧ 20 ≤ r.minLength ∧ r.minLength ≤ 1020

end Sys2Proof.Machine
end

