-- ==== Sys2Proof/WellFormed.lean ====
section
/-! DEFINITION. When a command is one that its row of the table describes. `exec` answers every command, well formed or not. -/

namespace Sys2Proof

/-- The command codes of section 1.10 (R18). -/
def definedCodes : List Byte :=
  [0x01, 0x02, 0x03, 0x04, 0x10, 0x11, 0x12, 0x13, 0x14, 0x20, 0x21, 0x22, 0x23, 0x24, 0x30, 0x31, 0x32, 0x33, 0x34]

/-- A parameter field is 0 to 992 bytes long (R171). -/
def Request.wellFormed (r : Request) : Bool := r.params.length ≤ 992

/-- The rows that share a command are told apart by the parameter field (log 13): READ_STATE_CLEAR is option 01h and
LOAD_BEGIN_EXTEND is mode 02h; READ_STATE and LOAD_BEGIN_FRESH take every other field, the refused ones too. UNKNOWN_COMMAND has a
code outside section 1.10. The rows that are no request have no operand to check: a port delivers any bytes (R9). -/
def Instr.wellFormed : Instr → Bool
  | .presenceAssertion _ | .presenceNegation _ | .wakeInAssertion | .wakeInNegation | .powerOnReset
  | .arrivalOnCouplerPort _ _ | .arrivalOnPortC _ | .dormantArrival _ _
  | .settleExpiry _ | .greetExpiry _ | .answerLimitReached _ | .silenceLimitReached _
  | .fadeExpiry _ | .rouseExpiry _ | .rouseBurstReached _ | .noticeTimerExpiry
  | .transmissionStart _ | .transmissionCompletion _
  | .blockFoldCompletion | .finishCompletion | .stagingTimerExpiry | .graceTimerExpiry => true
  | .setIdentity r | .sleep r | .releaseWake r | .restart r
  | .readRoster r | .readCapture r | .readOvertaken r | .ruleRead r
  | .loadRecords r | .confirm r | .discard r | .enact r
  | .ruleWrite r | .hold r | .release r | .setTiming r | .setClass r => r.wellFormed
  | .readState r => r.wellFormed && r.params != [0x01]
  | .readStateClear r => r.params == [0x01]
  | .loadBeginFresh r => r.wellFormed && r.params != [0x02]
  | .loadBeginExtend r => r.params == [0x02]
  | .unknownCommand code r => r.wellFormed && !definedCodes.contains code

/-- A well-formed command. -/
abbrev Instr.WellFormed (i : Instr) : Prop := i.wellFormed = true

end Sys2Proof
end

