-- ==== Sys2Proof/Certificates/Slice0/Obligations.lean ====
section
/-! DEFINITION. The statements for the provers, in the order of OBLIGATIONS.json.

`s.served` says that nothing eligible waits at an idle port, as R161 leaves every port ("its transmission begins at once"). Every command
but TRANSMISSION_START makes the starts that are due first; TransmissionTakesFirstEligibleItem says so, and with it (for the completion row
of an idle port CompletionReturnsCells) what a command does in a state where some are due. -/

section

open Sys2Proof Sys2Proof.Machine

/-! ## The queue, the idle step and the resets -/

/-- A step runs the command at the front of the queue on the rest of the queue. -/
def Obligations.StepRunsFrontCommand : Prop :=
  ∀ (c : Instr) (rest : List Instr) (s : State), s.pending = c :: rest → step s = exec c { s with pending := rest }

/-- With nothing queued a step takes one of the part's own moments that is due: an expiry whose timer has no time left (R21, R102, R122,
R126), or the start of a transmission on an idle port with something eligible (R161). With none due it is one microsecond: the clock
advances and wraps (R23), running timers come nearer. That an idle step is this, that a timer holds its remaining time, and which of
several moments is taken, is the model's choice (log 2, log 3, log 6, log 25). -/
def Obligations.IdleStepTicksClockAndTimers : Prop :=
  ∀ s : State, s.pending = [] →
    let moment := fun (c : Instr) =>
      (∃ e, (c = .settleExpiry e ∧ (s.clm e).settle = some 0) ∨ (c = .greetExpiry e ∧ (s.clm e).greet = some 0)
        ∨ (c = .fadeExpiry e ∧ (s.clm e).fade = some 0) ∨ (c = .rouseExpiry e ∧ (s.clm e).rouse = some 0))
      ∨ (c = .noticeTimerExpiry ∧ s.ng.timer = some 0) ∨ (c = .stagingTimerExpiry ∧ s.su.timer = some 0)
      ∨ (c = .graceTimerExpiry ∧ s.ru.grace = some 0)
      ∨ ∃ p, c = .transmissionStart p ∧ (s.eqm.port p).tx = none ∧ s.pick p ≠ none
    ((∀ c, ¬ moment c) →
      step s = .next
        { s with
          clock := s.clock + 1
          clmA := { s.clmA with settle := s.clmA.settle.map (· - 1), greet := s.clmA.greet.map (· - 1)
                                fade := s.clmA.fade.map (· - 1), rouse := s.clmA.rouse.map (· - 1) }
          clmB := { s.clmB with settle := s.clmB.settle.map (· - 1), greet := s.clmB.greet.map (· - 1)
                                fade := s.clmB.fade.map (· - 1), rouse := s.clmB.rouse.map (· - 1) }
          ru := { s.ru with grace := s.ru.grace.map (· - 1) }
          ng := { s.ng with timer := s.ng.timer.map (· - 1) }
          su := { s.su with timer := s.su.timer.map (· - 1) } })
    ∧ (∀ c, moment c → (∀ d, moment d → d = c) → step s = exec c s)
    ∧ ((∃ c, moment c) → ∃ c n, moment c ∧ (n = s.free ∨ n = s.free + 1) ∧ step s = exec c { s with free := n })

/-- No command stops the part or touches the commands that wait. -/
def Obligations.EveryCommandCompletes : Prop :=
  ∀ (i : Instr) (s : State), ∃ t, exec i s = .next t ∧ t.pending = s.pending

/-- The power-on values the spec gives, block by block. -/
def Obligations.ResetValuesOfEveryBlock : Prop :=
  State.reset.power = .active ∧ State.reset.clock = 0
    ∧ (∀ e, State.reset.clm e = .rest .dark none { clock := 0, cause := .noCause })
    ∧ State.reset.rouse = { capture := none, wakeFlag := false } ∧ State.reset.wakeOutput = false
    ∧ State.reset.ru =
        { active := { records := [], generation := 0, context := 0xFFFFFFFF }, prior := none, grace := none
          standingA := .vacant, standingB := .vacant, cutMap := [], authority := .lone }
    ∧ State.reset.ng = { settled := true, timer := none }
    ∧ State.reset.su = { staging := .empty, job := .idle, timer := none }
    ∧ State.reset.cm.policy1 = .flush ∧ State.reset.cm.policy2 = .reroute ∧ State.reset.cm.policy3 = .flush
    ∧ State.reset.eqm.freeCells = 768 ∧ (∀ p c, State.reset.eqm.queue p c = []) ∧ (∀ p, (State.reset.eqm.port p).tx = none)
    ∧ State.reset.eqm.overtaken = [] ∧ State.reset.eqm.overflow = false
    ∧ State.reset.eqm.hold = { c1 := false, c2 := false, c3 := false }
    ∧ (∀ r, State.reset.discards.tallies.get r = 0) ∧ State.reset.discards.last = none
    ∧ State.reset.cu =
        { identity := 0, loaded := false, refusals := 0, sleepPending := false
          timing := { settleTime := 200, fadeTime := 60, greetPeriod := 20, silenceLimit := 5, answerLimit := 25
                      rouseInterval := 100, rouseBurst := 20, noticeInterval := 250, gracePeriod := 2000
                      stagingTimeout := 5000 } }

/-- POWER_ON_RESET and RESTART: every block at its power-on values. RESTART keeps the identity, the rouse capture with the wake
flag, and the clock, is not answered, and moves a link whose presence is asserted to SETTLING. That power-on reset leaves the levels
of the input lines is the model's choice (log 7). -/
def Obligations.ResetsRestorePowerOnValues : Prop :=
  ∀ s : State,
    exec .powerOnReset s = .next { State.reset with lines := s.lines, free := s.free, pending := s.pending }
    ∧ ∀ r : Request, s.passes .restart r → r.params = [] →
        exec (.restart r) s = .next
          { State.reset with
            lines := s.lines, clock := s.clock, rouse := s.rouse
            clmA := (if s.lines.presenceA then .rest .settling (startMs 200) { clock := 0, cause := .noCause }
                     else .rest .dark none { clock := 0, cause := .noCause })
            clmB := (if s.lines.presenceB then .rest .settling (startMs 200) { clock := 0, cause := .noCause }
                     else .rest .dark none { clock := 0, cause := .noCause })
            cu := { State.reset.cu with identity := s.cu.identity, loaded := s.cu.loaded }
            free := s.free, pending := s.pending }

/-- The frame as bytes (R1, R9, R10): what the part builds passes its own checks and reads back whole, and a frame that passes the
checks is the one that would be built from its fields, every byte of it. -/
def Obligations.FramesReadBackWhole : Prop :=
  (∀ f : Frame, f.payload.length ≤ 1000 → f.wire.length = f.payload.length + 20 ∧ parseFrame f.wire = some f)
  ∧ ∀ (bytes : List Byte) (f : Frame), parseFrame bytes = some f → f.wire = bytes ∧ f.payload.length ≤ 1000

/-! ## Lines, dormancy and rousing -/

/-- PRESENCE_ASSERTION in every link state, and PRESENCE_NEGATION in every link state but JOINED. A level that is there already makes
no event (log 4). -/
def Obligations.PresenceChangesMoveLinks : Prop :=
  ∀ (e : End) (s : State), s.served →
    (s.presence e = true → exec (.presenceAssertion e) s = .next s)
    ∧ (s.presence e = false → (s.clm e).link = .dark →
        exec (.presenceAssertion e) s = .next
          (if s.cu.loaded then
             (s.setPresence e true).setClm e
               { s.clm e with link := .settling, settle := startMs s.cu.timing.settleTime }
           else s.setPresence e true))
    ∧ (s.presence e = false → (s.clm e).link = .fading →
        exec (.presenceAssertion e) s = .next ((s.setPresence e true).setClm e { s.clm e with link := .joined, fade := none }))
    ∧ (s.presence e = false → (s.clm e).link ≠ .dark → (s.clm e).link ≠ .fading →
        exec (.presenceAssertion e) s = .next (s.setPresence e true))
    ∧ (s.presence e = false → exec (.presenceNegation e) s = .next s)
    ∧ (s.presence e = true → (s.clm e).link = .settling ∨ (s.clm e).link = .greeting ∨ (s.clm e).link = .mute →
        exec (.presenceNegation e) s = .next
          { (s.setPresence e false).setClm e (.rest .dark none (s.clm e).lastChange) with
            eqm := s.eqm.abandonLinkControl (End.toPort e) })
    ∧ (s.presence e = true → (s.clm e).link = .dark ∨ (s.clm e).link = .fading ∨ (s.clm e).link = .listen →
        exec (.presenceNegation e) s = .next (s.setPresence e false))

/-- R39: PRESENCE_NEGATION in JOINED. Nothing but the level, the link state and the fade timer changes, and the port goes on taking
the same item at its frame boundaries. -/
def Obligations.PresenceNegationInJoinedFades : Prop :=
  ∀ (e : End) (s : State), s.served → s.presence e = true → (s.clm e).link = .joined →
    ∃ t, exec (.presenceNegation e) s = .next t
      ∧ t = (s.setPresence e false).setClm e { s.clm e with link := .fading, fade := startMs s.cu.timing.fadeTime }
      ∧ t.pick (End.toPort e) = s.pick (End.toPort e)

/-- WAKE_IN_ASSERTION and WAKE_IN_NEGATION: only a change from negated to asserted wakes, and only a DORMANT part. -/
def Obligations.WakeInWakesDormantPart : Prop :=
  ∀ s : State, s.served →
    exec .wakeInNegation s = .next { s with lines := { s.lines with wakeIn := false } }
    ∧ (s.lines.wakeIn = true → exec .wakeInAssertion s = .next s)
    ∧ (s.lines.wakeIn = false → s.power = .active →
        exec .wakeInAssertion s = .next { s with lines := { s.lines with wakeIn := true } })
    ∧ (s.lines.wakeIn = false → s.power = .dormant →
        ∃ t, exec .wakeInAssertion s = .next t ∧ Woken { s with lines := { s.lines with wakeIn := true } } t)

/-- DORMANT_ARRIVAL, and the arrival rows in DORMANT: a rouse match with the capture empty fills it, sets the wake flag and wakes the
part; every other frame changes nothing. In ACTIVE a DORMANT_ARRIVAL is the arrival it would be otherwise (log 14). -/
def Obligations.RouseMatchWakesAndCaptures : Prop :=
  ∀ (e : End) (bytes : List Byte) (s : State),
    (s.power = .dormant → RouseMatches s bytes → s.rouse.capture = none →
      ∃ t, exec (.dormantArrival e bytes) s = .next t ∧ exec (.arrivalOnCouplerPort e bytes) s = .next t
        ∧ Woken { s with rouse :=
            { capture := some { bytes := bytes.take 64, length := bytes.length, arrival := e, clock := s.clock }
              wakeFlag := true } } t)
    ∧ (s.power = .dormant → ¬ RouseMatches s bytes ∨ s.rouse.capture ≠ none →
        exec (.dormantArrival e bytes) s = .next s ∧ exec (.arrivalOnCouplerPort e bytes) s = .next s)
    ∧ (s.power = .dormant → exec (.arrivalOnPortC bytes) s = .next s)
    ∧ (s.power = .active → exec (.dormantArrival e bytes) s = exec (.arrivalOnCouplerPort e bytes) s)

/-! ## Arrivals in ACTIVE -/

/-- Frames the arrival checks refuse: a failed test of R9, a short body (R13), a link kind on port C (R2). Only the discard log
changes. That a port C frame is recorded before stamping here is the model's reading (log 10). -/
def Obligations.FaultyArrivalsAreCounted : Prop :=
  ∀ (e : End) (bytes : List Byte) (s : State), s.served → s.power = .active →
    (FailsChecks bytes →
      exec (.arrivalOnCouplerPort e bytes) s = .next
        (s.lost .frameFault (.port (End.toPort e)) (byteAt bytes 0) (if bytes.length < 12 then 0 else wordAt bytes 8))
      ∧ exec (.arrivalOnPortC bytes) s = .next
        (s.lost .frameFault (.port .c) (byteAt bytes 0) (if bytes.length < 12 then 0 else wordAt bytes 8)))
    ∧ ∀ f, parseFrame bytes = some f →
        ((f.kind = .greet ∧ f.payload.length < 12) ∨ (f.kind = .notice ∧ f.payload.length < 28)
            ∨ (f.kind = .mgmtReq ∧ f.payload.length < 8) ∨ (f.kind = .mgmtRsp ∧ f.payload.length < 12) →
          exec (.arrivalOnCouplerPort e bytes) s = .next (s.lost .frameFault (.port (End.toPort e)) f.kind.code f.srcId)
          ∧ exec (.arrivalOnPortC bytes) s = .next (s.lost .frameFault (.port .c) f.kind.code f.srcId))
        ∧ (f.kind = .greet ∨ f.kind = .rouse →
            exec (.arrivalOnPortC bytes) s = .next (s.lost .frameFault (.port .c) f.kind.code f.srcId))
        ∧ (f.kind = .rouse → exec (.arrivalOnCouplerPort e bytes) s = .next s)

/-- A GREET of at least 12 body bytes, in every link state. -/
def Obligations.GreetReceiptInEveryLinkState : Prop :=
  ∀ (e : End) (bytes : List Byte) (s : State) (f : Frame) (sender heard : Word) (senderEnd heardEnd : Byte) (g : Half),
    s.served → s.power = .active → parseFrame bytes = some f → f.kind = .greet → 12 ≤ f.payload.length →
    sender = wordAt f.payload 0 → senderEnd = byteAt f.payload 4 → g = halfAt f.payload 5 →
    heard = wordAt f.payload 7 → heardEnd = byteAt f.payload 11 →
    let named : Prop := s.cu.loaded = true ∧ heard = s.cu.identity ∧ heardEnd = End.code e
    let recorded : Prop :=
      ∃ n, (s.clm e).neighbour = some n ∧ n.identity = sender ∧ n.endCode = senderEnd
    let run := exec (.arrivalOnCouplerPort e bytes) s
    (sender = 0 ∨ sender = 0xFFFFFFFF → run = .next (s.lost .frameFault (.port (End.toPort e)) f.kind.code f.srcId))
    ∧ (sender ≠ 0 → sender ≠ 0xFFFFFFFF →
        ((s.clm e).link = .dark ∨ (s.clm e).link = .settling ∨ (s.clm e).link = .listen → run = .next s)
        ∧ ((s.clm e).link = .greeting → named →
            run = .next
              (s.setClm e
                { s.clm e with
                  link := .joined, candidate := none, silenceCount := 0, answerCount := 0, greetHeard := true
                  neighbour := some { identity := sender, endCode := senderEnd, generation := g, joinedAt := s.clock }
                  lastChange := { clock := s.clock, cause := (s.clm e).lastChange.cause } }).linkChange)
        ∧ ((s.clm e).link = .greeting → ¬ named →
            run = .next (s.setClm e { s.clm e with candidate := some { identity := sender, endCode := senderEnd } }))
        ∧ ((s.clm e).link = .mute →
            run = .next
              (s.setClm e
                { s.clm e with
                  link := .greeting, answerCount := 0, silenceCount := 0, rouseCount := 0, greetHeard := false
                  settle := none, fade := none, rouse := none, greet := startMs s.cu.timing.greetPeriod, neighbour := none
                  candidate := some { identity := sender, endCode := senderEnd }, slot := { greet := true, rouse := false } }))
        ∧ ((s.clm e).link.isJoined = true → recorded → named →
            run = .next
              (s.setClm e
                { s.clm e with
                  silenceCount := 0, greetHeard := true
                  neighbour := (s.clm e).neighbour.map (fun n => { n with generation := g }) }))
        ∧ ((s.clm e).link.isJoined = true → ¬ (recorded ∧ named) →
            run = .next (s.lose e .changed (some { identity := sender, endCode := senderEnd }))))

/-- The loss of a joined link (R24, R31, R41 to R43, R165): the monitor goes to GREETING from JOINED and to DARK (R29) from FADING
with the capture written, the link-loss purge of its port is taken, and the link change is handed over; every queued frame of the port
and the queued frame on its line is discarded as LINK_LOST, in the order of R165; the other end's monitor is untouched. That the
link-loss purge comes before the link change, its computation and its NOTICE, is the model's reading (log 9). -/
def Obligations.LossOfLinkPurgesItsPort : Prop :=
  (∀ (e : End) (s : State) (cause : LossCause) (cand : Option Candidate),
    let last : LastChange := { clock := s.clock, cause := cause }
    let greeting : Clm :=
      { s.clm e with
        link := .greeting, answerCount := 0, silenceCount := 0, rouseCount := 0, greetHeard := false, settle := none
        fade := none, rouse := none, greet := startMs s.cu.timing.greetPeriod, neighbour := none, candidate := cand
        lastChange := last, slot := { (s.clm e).slot with greet := true } }
    ((s.clm e).link = .joined →
      s.lose e cause cand = ((s.setClm e greeting).linkLossPurge (End.toPort e)).linkChange
        ∧ (s.lose e cause cand).clm e = greeting)
    ∧ ((s.clm e).link = .fading →
        s.lose e cause cand =
          (({ s.setClm e (s.darkened e last) with eqm := s.eqm.abandonLinkControl (End.toPort e) }).linkLossPurge
            (End.toPort e)).linkChange
        ∧ (s.lose e cause cand).clm e = s.darkened e last)
    ∧ (s.lose e cause cand).clm (End.other e) = s.clm (End.other e)
    ∧ ((s.clm e).link.isJoined = true →
        (∀ c, (s.lose e cause cand).eqm.queue (End.toPort e) c = [])
        ∧ ((s.lose e cause cand).eqm.port (End.toPort e)).sent = []))
  ∧ (∀ (s : State) (p : Port),
      let lost := (s.eqm.port p).sent ++ (s.eqm.port p).entries
      s.linkLossPurge p =
        { s with
          eqm := { s.eqm.setPort p { c0 := [], c1 := [], c2 := [], c3 := []
                                     tx := match (s.eqm.port p).tx with | some ⟨.queued _ _, _⟩ => none | x => x } with
                   freeCells := s.eqm.freeCells + cellsOf lost }
          discards := s.discards.addAll s.clock (lost.map (fun x => x.discard .linkLost)) })
  ∧ ∀ (q : Eqm) (p : Port),
      q.abandonLinkControl p =
        q.setPort p { q.port p with
          tx := match (q.port p).tx with | some ⟨.greet, _⟩ => none | some ⟨.rouse, _⟩ => none | x => x }

/-- A link change (R42, R64 to R70, R127 to R130, R166): standings, cut map, authority and settledness are computed from the links, the
roster and the cut map; the standing-leave purge of each end that left MATCHED follows, and then one NOTICE is emitted; nothing else
changes. The purge discards C1 to C3 of its port front first, under the reason of R66 and R166. That the purges come before the NOTICE
(log 9), and that a notice timer expiry which is due then stays due (log 26), is the model's reading. -/
def Obligations.LinkChangeRecomputesJudgements : Prop :=
  (∀ s : State,
    let t := s.linkChange
    let judged := { s with ru := t.ru, ng := { s.ng with settled := t.ng.settled } }
    let left := fun (e : End) => s.ru.standing e = .matched ∧ t.ru.standing e ≠ .matched
    ∃ u v : State,
      (left .a → u = judged.standingLeavePurge .a) ∧ (¬ left .a → u = judged)
      ∧ (left .b → v = u.standingLeavePurge .b) ∧ (¬ left .b → v = u)
      ∧ t = v.announced
      ∧ t = { s with ru := t.ru, ng := t.ng, eqm := t.eqm, discards := t.discards }
      ∧ t.ru.active = s.ru.active ∧ t.ru.prior = s.ru.prior ∧ t.ru.grace = s.ru.grace
      ∧ t.judgedFrom (fun k => k ∈ s.ru.cutMap)
      ∧ t.ng.timer = (if t.ng.settled then none else if s.ng.timer = some 0 then some 0
                      else startMs s.cu.timing.noticeInterval))
  ∧ ∀ (s : State) (e : End),
      let p := End.toPort e
      let lost := s.eqm.queue p .c1 ++ s.eqm.queue p .c2 ++ s.eqm.queue p .c3
      let reason : Reason :=
        if (s.clm e).link.isJoined = false then .linkLost
        else if s.ru.standing e = .foreign then .foreignLink else .noPath
      s.standingLeavePurge e =
        { s with
          eqm := { s.eqm.setPort p { s.eqm.port p with c1 := [], c2 := [], c3 := [] } with
                   freeCells := s.eqm.freeCells + cellsOf lost }
          discards := s.discards.addAll s.clock (lost.map (fun x => x.discard reason)) }

/-- Stages 4 and 5 of R11 for a data frame that enacts nothing: stale and stranded frames, foreign ends, and the frame that goes on
to path choice as it arrived or translated. -/
def Obligations.DataFrameGenerationHandling : Prop :=
  ∀ (e : End) (bytes : List Byte) (s : State) (f : Frame),
    s.served → s.power = .active → parseFrame bytes = some f → f.kind.isData = true → s.enactsNothing f.generation →
    let run := exec (.arrivalOnCouplerPort e bytes) s
    let lost := fun r => s.lost r (.port (End.toPort e)) f.kind.code f.srcId
    (f.generation = s.ru.active.generation → s.ru.standing e ≠ .matched → run = .next (lost .foreignLink))
    ∧ (f.generation = s.ru.active.generation → s.ru.standing e = .matched → run = .next (s.routeData (End.toPort e) f))
    ∧ (f.generation ≠ s.ru.active.generation → (∀ p, s.ru.prior = some p → p.generation ≠ f.generation) →
        run = .next (lost .staleGeneration))
    ∧ ∀ p, f.generation ≠ s.ru.active.generation → s.ru.prior = some p → p.generation = f.generation →
        ((¬ ∃ f', Translates p.records s.ru.active.records s.ru.active.generation f f') → run = .next (lost .stranded))
        ∧ ∀ f', Translates p.records s.ru.active.records s.ru.active.generation f f' →
            (s.ru.standing e ≠ .matched →
              run = .next (s.lost .foreignLink (.port (End.toPort e)) f'.kind.code f'.srcId))
            ∧ (s.ru.standing e = .matched → run = .next (s.routeData (End.toPort e) f'))

/-- Path choice and the copies of a data frame (R75 to R77, R142 to R145): an addressed frame gets one copy or one discard, a train-wide
frame one copy for each MATCHED coupler port it did not arrive on and one for port C. Each copy carries the frame, its class and, for a
PROCESS frame of a cyclic outcome, its key. A discarding rule drops the frame and counts it once. A rule with local copy set adds the
flagged copy for port C where path choice made none and the frame did not come in there (R144). That refusals of path choice come before
the copies is the model's reading (log 20). -/
def Obligations.DataFramePathChoice : Prop :=
  ∀ (s : State) (arrival : Port) (f : Frame) (o : ClassOutcome), s.cm.classify arrival f = o →
    let run := s.routeData arrival f
    let lose := fun (t : State) r => t.lost r (.port arrival) f.kind.code f.srcId
    let copy := fun flag =>
      ({ frame := f, ingress := .port arrival
         key := if f.kind = .process ∧ o.cyclic = true then some { identity := f.srcId, publication := f.tag } else none
         localCopy := flag, sleepResponse := false } : Entry)
    let sent := fun (t : State) p => t.offer p o.cls.toCls (copy false)
    let extra := fun (t : State) => if o.localCopy = true ∧ arrival ≠ .c then t.offer .c o.cls.toCls (copy true) else t
    (o.discard = true → run = lose s .ruleDiscard)
    ∧ (o.discard = false →
        (recordOf s.ru.active.records s.ownId = none → f.dstPos ≠ 0 → run = extra (lose s .noPath))
        ∧ (∀ own, recordOf s.ru.active.records s.ownId = some own → f.dstPos ≠ 0 →
            (f.dstPos.toNat = own.position → f.dstDev ≠ 0 → arrival ≠ .c → run = sent s .c)
            ∧ (f.dstPos.toNat = own.position → f.dstDev = 0 ∨ arrival = .c → run = extra (lose s .noPath))
            ∧ (s.ru.active.records.length < f.dstPos.toNat → own.position < f.dstPos.toNat → run = extra (lose s .noPath))
            ∧ ∀ e, (f.dstPos.toNat < own.position ∧ e = leadEnd own.orientation)
                  ∨ (own.position < f.dstPos.toNat ∧ f.dstPos.toNat ≤ s.ru.active.records.length ∧ e = tailEnd own.orientation) →
                (arrival = End.toPort e ∨ s.ru.standing e ≠ .matched → run = extra (lose s .noPath))
                ∧ (arrival ≠ End.toPort e → s.ru.standing e = .matched → f.hop = 0 → run = extra (lose s .hopExhausted))
                ∧ (arrival ≠ End.toPort e → s.ru.standing e = .matched → f.hop ≠ 0 → run = extra (sent s (End.toPort e))))
        ∧ (f.dstPos = 0 → arrival = .c →
            let via := fun (t : State) e =>
              if s.ru.standing e = .matched then (if f.hop = 0 then lose t .hopExhausted else sent t (End.toPort e)) else t
            run = via (via s .a) .b)
        ∧ ∀ e, f.dstPos = 0 → arrival = End.toPort e →
            let t := if s.ru.standing (End.other e) = .matched then
                       (if f.hop = 0 then lose s .hopExhausted else sent s (End.toPort (End.other e)))
                     else s
            run = sent t .c)

/-- ARRIVAL_ON_PORT_C (R6, R12, R79 to R81): a data frame is stamped and goes to path choice; a response goes by its target; a notice is
stamped and flooded; a request for this car or with target 0 is handed to the command unit and goes no further, one for ALL is handed
over and flooded (for an ENACT or a RELEASE in an order that is open, log 8), and one for another car is flooded. Flooding from port C
makes one copy for port A and then one for port B, where their links are JOINED or FADING (R78). -/
def Obligations.PortCArrivalsAreStamped : Prop :=
  ∀ (bytes : List Byte) (s : State) (f g : Frame), s.served → s.power = .active → parseFrame bytes = some f →
    g = { f with generation := s.ru.active.generation, srcPos := natByte s.ownPos, srcId := s.ownId, hop := 31 } →
    let run := exec (.arrivalOnPortC bytes) s
    let target := wordAt f.payload 0
    let code := byteAt f.payload 6
    let isOwn : Prop := s.cu.loaded = true ∧ target = s.cu.identity
    let r : Request :=
      { port := .c, source := s.ownId, seqTag := f.tag, target := target, requestTag := halfAt f.payload 4
        params := f.payload.drop 8 }
    (f.kind.isData = true → run = .next (s.routeData .c g))
    ∧ (f.kind = .mgmtRsp → 12 ≤ f.payload.length →
        (isOwn → run = .next (s.lost .noPath (.port .c) g.kind.code g.srcId))
        ∧ (¬ isOwn → run = .next (s.flood (.port .c) g)))
    ∧ (f.kind = .notice → 28 ≤ f.payload.length → run = .next (s.flood (.port .c) g))
    ∧ (f.kind = .mgmtReq → 8 ≤ f.payload.length →
        (isOwn ∨ target = 0 → target ≠ targetAll → run = .next (s.handleCode code r))
        ∧ (target = targetAll → code ≠ 0x24 → code ≠ 0x32 → run = .next ((s.handleCode code r).flood (.port .c) g))
        ∧ (target = targetAll → code = 0x24 ∨ code = 0x32 →
            ∃ u : State, (u = s ∨ u = { s with free := s.free + 1 })
              ∧ (run = .next ((u.handleCode code r).flood (.port .c) g)
                  ∨ run = .next ((u.flood (.port .c) g).handleCode code r)))
        ∧ (¬ isOwn → target ≠ 0 → target ≠ targetAll → run = .next (s.flood (.port .c) g)))
    ∧ ∀ (u : State) (h : Frame),
        let via := fun (v : State) (e : End) =>
          if (v.clm e).link.isJoined = true then
            (if h.hop = 0 then v.lost .hopExhausted (.port .c) h.kind.code h.srcId
             else v.offer (End.toPort e) .c0 (controlEntry (.port .c) h))
          else v
        u.flood (.port .c) h = via (via u .a) .b

/-- R140, R141, R146: the outcome is that of the first rule that matches, and where none matches that of the kind. Which
bit of the mask covers which byte is the model's reading (log 18). -/
def Obligations.FirstMatchingRuleClassifies : Prop :=
  ∀ (m : ClassMatcher) (p : Port) (f : Frame),
    let matchesFrame := fun (r : Rule) =>
      r.enabled = true
        ∧ ((f.kind = .process ∧ r.kindProcess = true) ∨ (f.kind = .message ∧ r.kindMessage = true)
            ∨ (f.kind = .bulk ∧ r.kindBulk = true))
        ∧ ((p = .a ∧ r.portA = true) ∨ (p = .b ∧ r.portB = true) ∨ (p = .c ∧ r.portC = true))
        ∧ r.minLength ≤ f.payload.length + 20
        ∧ ∀ i, i < 32 → r.mask.getLsbD i = true →
            i < 16 + f.payload.length ∧ byteAt (f.header ++ f.payload) i = byteAt r.values i
    (∀ (i : Nat) (r : Rule), m.rules[i]? = some r → matchesFrame r → (∀ (j : Nat) (q : Rule), j < i → m.rules[j]? = some q → ¬ matchesFrame q) →
      m.classify p f = { cls := r.cls, cyclic := r.cyclic, localCopy := r.localCopy, discard := r.discard })
    ∧ ((∀ r ∈ m.rules, ¬ matchesFrame r) →
        (f.kind = .process → m.classify p f = { cls := .c1, cyclic := true, localCopy := false, discard := false })
        ∧ (f.kind = .message → m.classify p f = { cls := .c2, cyclic := false, localCopy := false, discard := false })
        ∧ (f.kind = .bulk → m.classify p f = { cls := .c3, cyclic := false, localCopy := false, discard := false }))

/-- Control frames of a coupler port that enact nothing (R78 to R81): a request for another car is flooded, one for this car is
handed to the command unit and goes no further, one for ALL is handed over and flooded (for an ENACT or a RELEASE in an order that is
open, log 8); a response goes to port C or is flooded; a notice is interpreted, flooded and given to port C, and where its receipt changes authority
the part emits once (R135), in an order that is open (log 8). Flooding makes one copy for the other coupler port while its link is
JOINED or FADING. -/
def Obligations.ControlFramesOfCouplerPorts : Prop :=
  ∀ (e : End) (bytes : List Byte) (s : State) (f : Frame),
    s.served → s.power = .active → parseFrame bytes = some f → s.enactsNothing f.generation →
    let run := exec (.arrivalOnCouplerPort e bytes) s
    let i : Ingress := .port (End.toPort e)
    let target := wordAt f.payload 0
    let isOwn : Prop := s.cu.loaded = true ∧ target = s.cu.identity
    let r : Request :=
      { port := End.toPort e, source := f.srcId, seqTag := f.tag, target := target, requestTag := halfAt f.payload 4
        params := f.payload.drop 8 }
    (f.kind = .mgmtReq → 8 ≤ f.payload.length →
      (isOwn → target ≠ targetAll → run = .next (s.handleCode (byteAt f.payload 6) r))
      ∧ (target = targetAll → byteAt f.payload 6 ≠ 0x24 → byteAt f.payload 6 ≠ 0x32 →
          run = .next ((s.handleCode (byteAt f.payload 6) r).flood i f))
      ∧ (target = targetAll → byteAt f.payload 6 = 0x24 ∨ byteAt f.payload 6 = 0x32 →
          ∃ u : State, (u = s ∨ u = { s with free := s.free + 1 })
            ∧ (run = .next ((u.handleCode (byteAt f.payload 6) r).flood i f)
                ∨ run = .next ((u.flood i f).handleCode (byteAt f.payload 6) r)))
      ∧ (¬ isOwn → target ≠ targetAll → run = .next (s.flood i f)))
    ∧ (f.kind = .mgmtRsp → 12 ≤ f.payload.length →
        (isOwn → run = .next (s.offer .c .c0 (controlEntry i f))) ∧ (¬ isOwn → run = .next (s.flood i f)))
    ∧ (f.kind = .notice → 28 ≤ f.payload.length → (s.interpret f).ru.authority = s.ru.authority →
        run = .next (((s.interpret f).flood i f).offer .c .c0 (controlEntry i f)))
    ∧ (f.kind = .notice → 28 ≤ f.payload.length → (s.interpret f).ru.authority ≠ s.ru.authority →
        let u := { s.interpret f with free := s.free + 1 }
        let forward := fun (v : State) => (v.flood i f).offer .c .c0 (controlEntry i f)
        run = .next (forward u).announced ∨ run = .next (forward u.announced))
    ∧ ∀ u : State,
        u.flood i f =
          if (u.clm (End.other e)).link.isJoined = true then
            (if f.hop = 0 then u.lost .hopExhausted i f.kind.code f.srcId
             else u.offer (End.toPort (End.other e)) .c0 (controlEntry i f))
          else u

/-- The severance interpretation of a NOTICE (R132, R133, R135). The standing takes no part (R132), whatever its code; that R17 asks no
more of an unknown standing code is the model's reading (log 21). -/
def Obligations.NoticeReportsCutMap : Prop :=
  ∀ (s : State) (f : Frame),
    (f.generation ≠ s.ru.active.generation ∨ recordOf s.ru.active.records f.srcId = none ∨ f.srcId = s.ownId →
      s.interpret f = s)
    ∧ ∀ q, f.generation = s.ru.active.generation → recordOf s.ru.active.records f.srcId = some q → f.srcId ≠ s.ownId →
        let joinedAt := fun (E : End) (x : Expectation) =>
          let base := if E = .a then 4 else 16
          (byteAt f.payload base = 0x05 ∨ byteAt f.payload base = 0x06)
            ∧ wordAt f.payload (base + 2) = x.identity ∧ byteAt f.payload (base + 6) = x.endCode
        let reported := fun (E : End) (x : Expectation) (k : Nat) =>
          expectation s.ru.active.records q E = some x ∧ x.adjacency = k ∧ k + 1 ≠ s.ownPos ∧ k ≠ s.ownPos
        s.interpret f = { s with ru := { s.ru with cutMap := (s.interpret f).ru.cutMap
                                                   authority := (s.interpret f).ru.authority } }
        ∧ (∀ k, k ∈ (s.interpret f).ru.cutMap ↔
            (∃ E x, reported E x k ∧ ¬ joinedAt E x) ∨ ((∀ E x, ¬ reported E x k) ∧ k ∈ s.ru.cutMap))
        ∧ ((s.interpret f).ru.cutMap = s.ru.cutMap → s.interpret f = s)
        ∧ ((s.interpret f).ru.cutMap ≠ s.ru.cutMap →
            (s.interpret f).ru.authority =
              authorityOf s.ownId s.ru.active.records (s.interpret f).ru.cutMap)

/-! ## Enactment -/

/-- ENACT (R111, R112) with its refusals in their order, and the implicit enactment of an arriving frame that bears the confirmed
generation (R113): the frame is then handled as if it had arrived after the enactment. That the response is admitted after the
enactment's NOTICE (log 12), and the NOTICE before the copies of the frame (log 23), is the model's reading. -/
def Obligations.EnactCommandAndArrivalEnact : Prop :=
  (∀ (s : State) (r : Request), s.served → s.passes .enact r → r.params.length = 2 →
    let refused := fun (o : ReplyCode) (d : List Byte) =>
      exec (.enact r) s = .next (({ s with cu := { s.cu with refusals := saturate s.cu.refusals } }).respond r 0x24 o d)
    let granted : Prop := r.port = .c ∨ s.sentByMaster r ∨ (∃ b, s.su.staging.body? = some b ∧ b.owner = Request.sender r)
      ∨ s.ru.authority ≠ .governed
    ((∀ b c, s.su.staging ≠ .confirmed b c) → refused .notConfirmed [s.su.staging.code])
    ∧ ∀ b c, s.su.staging = .confirmed b c →
        (halfAt r.params 0 ≠ c.generation → refused .generationMismatch (Half.bytes c.generation))
        ∧ (halfAt r.params 0 = c.generation → ¬ granted → refused .notAuthorised [])
        ∧ (halfAt r.params 0 = c.generation → granted →
            let t := s.enactment b c
            exec (.enact r) s = .next
              (t.respond r 0x24 .done
                (Half.bytes t.ru.active.generation
                  ++ [natByte t.ru.active.records.length, natByte t.ownPos, t.ru.authority.code]))))
  ∧ ∀ (s : State) (b : StagingBody) (c : ConfirmedRecord) (e : End) (bytes : List Byte) (f : Frame),
      s.served → s.su.staging = .confirmed b c → s.power = .active → parseFrame bytes = some f →
      f.kind ≠ .greet → f.kind ≠ .rouse → f.kind.fixedBody ≤ f.payload.length → f.generation = c.generation →
      exec (.arrivalOnCouplerPort e bytes) s = exec (.arrivalOnCouplerPort e bytes) (s.enactment b c)

/-- What an enactment changes (R106, R107, R127): rosters, grace, staging; judgements computed anew, with the cut map rebuilt from own
standing; the queues as the re-evaluation leaves them under the new judgements, with the starts that are due after it; and then one
NOTICE where a standing or the authority differs from before, which leaves C1 to C3 alone. What becomes eligible at an idle port begins
at once (R161), a frame moved there before the NOTICE. That the NOTICE follows the re-evaluation is the model's choice (log 22). -/
def Obligations.EnactmentSwapsRosters : Prop :=
  ∀ (s : State) (b : StagingBody) (c : ConfirmedRecord),
    let t := s.enactment b c
    let u := ({ s with ru := t.ru, su := t.su, ng := { s.ng with settled := t.ng.settled } } : State).reevaluate.begun
    t = { s with clmA := { s.clmA with slot := t.clmA.slot }, clmB := { s.clmB with slot := t.clmB.slot }
                 ru := t.ru, su := t.su, ng := t.ng, eqm := t.eqm, discards := t.discards }
    ∧ t.ru.active = { records := b.records, generation := c.generation, context := c.context }
    ∧ (s.ru.active.records = [] → t.ru.prior = none ∧ t.ru.grace = none)
    ∧ (s.ru.active.records ≠ [] →
        t.ru.prior = some { records := s.ru.active.records, generation := s.ru.active.generation }
        ∧ t.ru.grace = startMs s.cu.timing.gracePeriod)
    ∧ t.su = { staging := .empty, job := .idle, timer := none }
    ∧ t.judgedFrom (fun _ => False)
    ∧ ((∃ e, t.ru.standing e ≠ s.ru.standing e) ∨ t.ru.authority ≠ s.ru.authority → t = u.announced.begun)
    ∧ ((∀ e, t.ru.standing e = s.ru.standing e) → t.ru.authority = s.ru.authority → t = u)
    ∧ u.served ∧ t.served
    ∧ ∀ p (k : DataClass), t.eqm.queue p k.toCls = u.eqm.queue p k.toCls

/-- The re-evaluation (R116 to R121). It takes the queues of C1 to C3 of port A, B and C, and in each the frames queued when it began,
front to back; `w` holds the queue manager, the frames of the present queue kept so far (newest first) and the discards so far (newest
first). Each frame is flushed, or translated and kept in its place, moved to the tail of the queue of the port chosen for it, or
discarded: STRANDED, NO_PATH, HOP_EXHAUSTED, OVERTAKEN_REROUTE with its entry in the report, QUEUE_FULL or SLOT_EXHAUSTED. Afterwards no
frame of a FLUSH class is queued anywhere and none of C1 to C3 on a coupler port whose end does not stand MATCHED; the C0 queues, the
frames on the lines and the hold set are as they were. -/
def Obligations.ReevaluationLeavesOnlyServableFrames : Prop :=
  ∀ s : State,
    (let x := [(Port.a, DataClass.c1), (.a, .c2), (.a, .c3), (.b, .c1), (.b, .c2), (.b, .c3), (.c, .c1), (.c, .c2), (.c, .c3)].foldl
        (fun (y : Eqm × List Discard) (z : Port × DataClass) =>
          let l := y.1.queue z.1 z.2.toCls
          let n := (s.eqm.queue z.1 z.2.toCls).length
          let w := (l.take n).foldl (s.evaluate z.1 z.2) { eqm := y.1.setQueue z.1 z.2.toCls (l.drop n), kept := [], lost := y.2 }
          (w.eqm.setQueue z.1 z.2.toCls (w.kept.reverse ++ w.eqm.queue z.1 z.2.toCls), w.lost))
        (s.eqm, [])
     s.reevaluate = { s with eqm := x.1, discards := s.discards.addAll s.clock x.2.reverse })
    ∧ (∀ (p : Port) (c : DataClass) (w : Walk) (x : Entry),
        let run := s.evaluate p c w x
        let freed : Eqm := { w.eqm with freeCells := w.eqm.freeCells + x.cells }
        let lost := fun (r : Reason) =>
          ({ reason := r, ingress := x.ingress, kind := x.frame.kind.code, source := x.frame.srcId } : Discard) :: w.lost
        let dropped := fun r => run = { w with eqm := freed, lost := lost r }
        (s.cm.policy c = .flush → dropped .flushedAtEnact)
        ∧ (s.cm.policy c = .reroute → s.ru.prior = none → dropped .stranded)
        ∧ ∀ pr, s.cm.policy c = .reroute → s.ru.prior = some pr →
            ((¬ ∃ f, Translates pr.records s.ru.active.records s.ru.active.generation x.frame f) → dropped .stranded)
            ∧ ∀ f, Translates pr.records s.ru.active.records s.ru.active.generation x.frame f →
                let y : Entry := { x with frame := f }
                let stays := run = { w with kept := y :: w.kept }
                let flagged : Prop := p = .c ∧ x.localCopy = true
                let chosen := fun q => s.chooses x.ingress f.dstPos f.dstDev q
                (f.dstPos = 0 → s.portMatched p = true → stays)
                ∧ (f.dstPos = 0 → s.portMatched p = false → dropped .noPath)
                ∧ (f.dstPos ≠ 0 → flagged → stays)
                ∧ (f.dstPos ≠ 0 → ¬ flagged → (∀ q, ¬ chosen q) → dropped .noPath)
                ∧ (f.dstPos ≠ 0 → ¬ flagged → chosen p → stays)
                ∧ ∀ q, f.dstPos ≠ 0 → ¬ flagged → chosen q → q ≠ p →
                    let hops : Prop := q = .c ∨ f.hop ≠ 0
                    let free : Prop := ∀ k, x.key = some k → w.eqm.keyFree q k
                    let limit := match c with | .c1 => 32 | .c2 => 32 | .c3 => 48
                    let slots := ((w.eqm.port q).entries.filter (fun z => z.key.isSome)).length
                    (¬ hops → dropped .hopExhausted)
                    ∧ (∀ k, hops → x.key = some k → ¬ w.eqm.keyFree q k →
                        run = { w with eqm := freed.enterOvertaken k q, lost := lost .overtakenReroute })
                    ∧ (hops → free → limit ≤ (w.eqm.queue q c.toCls).length → dropped .queueFull)
                    ∧ (hops → free → (w.eqm.queue q c.toCls).length < limit → x.key ≠ none → 64 ≤ slots → dropped .slotExhausted)
                    ∧ (hops → free → (w.eqm.queue q c.toCls).length < limit → x.key = none ∨ slots < 64 →
                        run = { w with eqm := w.eqm.setQueue q c.toCls (w.eqm.queue q c.toCls ++ [y]) }))
    ∧ (∀ c : DataClass, s.cm.policy c = .flush → ∀ p, s.reevaluate.eqm.queue p c.toCls = [])
    ∧ (∀ e : End, s.ru.standing e ≠ .matched → ∀ c : DataClass, s.reevaluate.eqm.queue (End.toPort e) c.toCls = [])
    ∧ (∀ p, s.reevaluate.eqm.queue p .c0 = s.eqm.queue p .c0 ∧ (s.reevaluate.eqm.port p).tx = (s.eqm.port p).tx)
    ∧ s.reevaluate.eqm.hold = s.eqm.hold
    ∧ s.reevaluate = { s with eqm := s.reevaluate.eqm, discards := s.reevaluate.discards }

/-! ## Timers of the links and the notice generator -/

/-- SETTLE_EXPIRY, FADE_EXPIRY, ROUSE_EXPIRY and ROUSE_BURST_REACHED (R21, R30, R31, R34, R40). A timer that is stopped
or has time left does not expire, and a burst is reached only where the count comes to it (log 3 to log 5). -/
def Obligations.SettleFadeAndRouseExpiries : Prop :=
  ∀ (e : End) (s : State), s.served →
    let c := s.clm e
    let roused := s.setClm e
      { c with slot := { c.slot with rouse := true }, rouseCount := c.rouseCount + 1
               rouse := if s.cu.timing.rouseBurst ≤ c.rouseCount + 1 then none else startMs s.cu.timing.rouseInterval }
    (c.settle ≠ some 0 → exec (.settleExpiry e) s = .next s)
    ∧ (c.settle = some 0 → c.link = .settling →
        exec (.settleExpiry e) s = .next
          (s.setClm e
            { c with link := .greeting, answerCount := 0, silenceCount := 0, rouseCount := 0, greetHeard := false
                     settle := none, fade := none, rouse := none, greet := startMs s.cu.timing.greetPeriod
                     neighbour := none, candidate := none, slot := { c.slot with greet := true } }))
    ∧ (c.fade ≠ some 0 → exec (.fadeExpiry e) s = .next s)
    ∧ (c.fade = some 0 → c.link = .fading → exec (.fadeExpiry e) s = .next (s.lose e .uncoupled none))
    ∧ (c.rouse ≠ some 0 → exec (.rouseExpiry e) s = .next s ∧ exec (.rouseBurstReached e) s = .next s)
    ∧ (c.rouse = some 0 → c.link = .mute → exec (.rouseExpiry e) s = .next roused)
    ∧ (c.rouse = some 0 → c.link = .mute → s.cu.timing.rouseBurst ≤ c.rouseCount + 1 →
        exec (.rouseBurstReached e) s = .next roused)
    ∧ (c.rouseCount + 1 < s.cu.timing.rouseBurst → exec (.rouseBurstReached e) s = .next s)

/-- GREET_EXPIRY, ANSWER_LIMIT_REACHED and SILENCE_LIMIT_REACHED (R33, R34, R38, R41; log 3 to log 5). The timer is periodic (R21). -/
def Obligations.GreetExpiries : Prop :=
  ∀ (e : End) (s : State), s.served →
    let c := { s.clm e with greet := startMs s.cu.timing.greetPeriod }
    let answered := s.setClm e
      (if s.cu.timing.answerLimit ≤ c.answerCount + 1 then
         { c with link := .mute, answerCount := c.answerCount + 1, rouseCount := 0
                  rouse := startMs s.cu.timing.rouseInterval, slot := { c.slot with greet := true } }
       else { c with answerCount := c.answerCount + 1, slot := { c.slot with greet := true } })
    let silence := if c.greetHeard then c.silenceCount else c.silenceCount + 1
    let heard := { c with silenceCount := silence, greetHeard := false }
    let silent := (s.setClm e heard).lose e .silent none
    (c.link = .greeting → (s.clm e).greet = some 0 → exec (.greetExpiry e) s = .next answered)
    ∧ (c.link = .greeting → (s.clm e).greet = some 0 → s.cu.timing.answerLimit ≤ c.answerCount + 1 →
        exec (.answerLimitReached e) s = .next answered)
    ∧ (c.link = .mute → (s.clm e).greet = some 0 →
        exec (.greetExpiry e) s = .next (s.setClm e { c with slot := { c.slot with greet := true } }))
    ∧ (c.link.isJoined = true → (s.clm e).greet = some 0 → silence < s.cu.timing.silenceLimit →
        exec (.greetExpiry e) s = .next (s.setClm e { heard with slot := { c.slot with greet := true } }))
    ∧ (c.link.isJoined = true → (s.clm e).greet = some 0 → s.cu.timing.silenceLimit ≤ silence →
        exec (.greetExpiry e) s = .next silent ∧ exec (.silenceLimitReached e) s = .next silent)
    ∧ ((s.clm e).greet ≠ some 0 →
        exec (.greetExpiry e) s = .next s ∧ exec (.answerLimitReached e) s = .next s
          ∧ exec (.silenceLimitReached e) s = .next s)
    ∧ (c.link ≠ .greeting ∨ c.answerCount + 1 < s.cu.timing.answerLimit → exec (.answerLimitReached e) s = .next s)
    ∧ (c.link.isJoined = false ∨ silence < s.cu.timing.silenceLimit → exec (.silenceLimitReached e) s = .next s)

/-- NOTICE_TIMER_EXPIRY (R126, R128 to R130): when the notice interval has passed, an unsettled part emits one NOTICE with the layout of
R128, offers its copies in port order and starts the timer anew; a settled one sends nothing. A timer that is stopped or has time left
does not expire (log 3, log 4). Taken after a hand-over that came together with it, the expiry does not occur where the part is settled,
and is the second of two emissions where it is not (R130; log 26). -/
def Obligations.NoticeTimerExpiryRepeatsNotice : Prop :=
  ∀ s : State, s.served →
    let report := fun (c : Clm) (st : Standing) =>
      [LinkState.code c.link, st.code]
        ++ (if c.link.isJoined then
              (match c.neighbour with | some n => Word.bytes n.identity ++ [n.endCode] | none => [0, 0, 0, 0, 0])
            else [0, 0, 0, 0, 0])
        ++ [c.lastChange.cause.code] ++ Word.bytes c.lastChange.clock
    let confirmed : Half := match s.su.staging with | .confirmed _ r => r.generation | _ => 0
    let notice : Frame :=
      { kind := .notice, hop := 31, generation := s.ru.active.generation, dstPos := 0, dstDev := 0, srcPos := natByte s.ownPos
        srcDev := 0, srcId := s.ownId, tag := 0
        payload := [s.ru.authority.code, 0] ++ Half.bytes confirmed ++ report s.clmA s.ru.standingA
                     ++ report s.clmB s.ru.standingB }
    let x := controlEntry .internal notice
    let s1 := if s.clmA.link.isJoined then s.offer .a .c0 x else s
    let s2 := if s.clmB.link.isJoined then s1.offer .b .c0 x else s1
    notice.payload.length = 28 ∧ s.noticeFrame = notice
    ∧ (s.ng.timer ≠ some 0 → exec .noticeTimerExpiry s = .next s)
    ∧ (s.ng.timer = some 0 → s.ng.settled = true →
        exec .noticeTimerExpiry s = .next { s with ng := { settled := true, timer := none } })
    ∧ (s.ng.timer = some 0 → s.ng.settled = false →
        let fired : State := { s with ng := { s.ng with timer := none } }
        exec .noticeTimerExpiry s = .next fired.announced
          ∧ fired.announced = { s2.offer .c .c0 x with ng := { settled := false, timer := startMs s.cu.timing.noticeInterval } })
    ∧ (s.ng.settled = true → s.announced.ng.timer = none ∧ exec .noticeTimerExpiry s.announced = .next s.announced.begun)
    ∧ (s.ng.timer = some 0 → s.ng.settled = false →
        s.announced = { s2.offer .c .c0 x with ng := s.ng }
          ∧ ∃ t, exec .noticeTimerExpiry s.announced = .next t
              ∧ t = ({ s.announced.begun with ng := { settled := false, timer := none } } : State).announced
              ∧ t.ng.timer = startMs s.cu.timing.noticeInterval)

/-! ## Egress -/

/-- TRANSMISSION_START (R7, R25, R28, R161 to R163): at a frame boundary of an ACTIVE part the first eligible item in the strict order
begins; a busy port, a port with nothing eligible and a DORMANT part begin nothing. Every other command finds the
starts that are due already made, so an item that became eligible at an idle port before it has begun; the completion row of an idle port
makes them and completes nothing (R164, CompletionReturnsCells). That the start is a row of its own, and that the command makes it, is
the model's choice of form (log 6). -/
def Obligations.TransmissionTakesFirstEligibleItem : Prop :=
  (∀ (p : Port) (s : State),
    let run := exec (.transmissionStart p) s
    let eligible := fun (c : Cls) => s.portJoined p = true ∧ (c ≠ .c0 → s.portMatched p = true) ∧ s.eqm.hold.mem c = false
    let slotted := ∃ e, p = End.toPort e ∧ ((s.clm e).slot.rouse = true ∨ (s.clm e).slot.greet = true)
      ∧ ((s.clm e).link = .greeting ∨ (s.clm e).link = .mute ∨ (s.clm e).link.isJoined = true)
    let send := fun (t : State) (x : Tx) => { t with eqm := t.eqm.setPort p { t.eqm.port p with tx := some x } }
    let built := fun (k : Kind) (payload : List Byte) =>
      ({ kind := k, hop := 0, generation := s.ru.active.generation, dstPos := 0, dstDev := 0, srcPos := natByte s.ownPos, srcDev := 0
         srcId := s.ownId, tag := 0, payload := payload } : Frame)
    let rouse := built .rouse (List.replicate 8 0x5A ++ List.replicate 24 0xFF)
    let heard := fun (c : Clm) =>
      if c.link.isJoined then
        (match c.neighbour with | some n => Word.bytes n.identity ++ [n.endCode] | none => [0, 0, 0, 0, 0])
      else (match c.candidate with | some n => Word.bytes n.identity ++ [n.endCode] | none => [0, 0, 0, 0, 0])
    let greet := fun (e : End) =>
      built .greet (Word.bytes s.ownId ++ [End.code e] ++ Half.bytes s.ru.active.generation ++ heard (s.clm e))
    (((s.eqm.port p).tx ≠ none ∨ s.power = .dormant) → run = .next s)
    ∧ ((s.eqm.port p).tx = none → s.power = .active →
        (∀ e, p = End.toPort e →
          (s.clm e).link = .greeting ∨ (s.clm e).link = .mute ∨ (s.clm e).link.isJoined = true →
          ((s.clm e).slot.rouse = true →
            run = .next (send (s.setClm e { s.clm e with slot := { (s.clm e).slot with rouse := false } })
              { item := .rouse, bytes := rouse.wire }))
          ∧ ((s.clm e).slot.rouse = false → (s.clm e).slot.greet = true →
              run = .next (send (s.setClm e { s.clm e with slot := { (s.clm e).slot with greet := false } })
                { item := .greet, bytes := (greet e).wire })))
        ∧ (¬ slotted →
            (∀ c x rest, eligible c → s.eqm.queue p c = x :: rest →
              (∀ d, (d = .c0 ∧ c ≠ .c0) ∨ (d = .c1 ∧ (c = .c2 ∨ c = .c3)) ∨ (d = .c2 ∧ c = .c3) →
                ¬ eligible d ∨ s.eqm.queue p d = []) →
              run = .next (send { s with eqm := s.eqm.setQueue p c rest }
                { item := .queued c x
                  bytes := ({ x.frame with hop := if p = Port.c then x.frame.hop else x.frame.hop - 1 }).wire }))
            ∧ ((∀ c, ¬ eligible c ∨ s.eqm.queue p c = []) → run = .next s))))
  ∧ ∀ s u v w : State, exec (.transmissionStart .a) s = .next u → exec (.transmissionStart .b) u = .next v →
      exec (.transmissionStart .c) v = .next w →
      w = s.begun ∧ w.served ∧ (s.served → w = s)
      ∧ ∀ c : Instr, (∀ p, c ≠ .transmissionStart p) → (∀ p, c = .transmissionCompletion p → (s.eqm.port p).tx ≠ none) →
          exec c s = exec c w

/-- TRANSMISSION_COMPLETION (R164, R48): the cells go back to the pool and the port is idle; the response that bears the
sleep-response flag puts the part to sleep. A port that sends nothing has no completion (log 4), and where a start is due there the item
begins and goes on being sent: "A transmission takes a positive, finite time". So "no completion follows" a frame that a purge aborted.
That the row makes the starts that are due is the model's choice of form (log 6). -/
def Obligations.CompletionReturnsCells : Prop :=
  (∀ (p : Port) (s : State), (s.eqm.port p).tx = none →
    exec (.transmissionCompletion p) s = .next s.begun ∧ (s.served → exec (.transmissionCompletion p) s = .next s)
      ∧ ∀ x, s.pick p = some x → (s.begun.eqm.port p).tx ≠ none)
  ∧ ∀ (p : Port) (s : State), s.served →
    let run := exec (.transmissionCompletion p) s
    let freed := fun n => { s with eqm := { s.eqm.setPort p { s.eqm.port p with tx := none } with
                                            freeCells := s.eqm.freeCells + n } }
    (∀ b, (s.eqm.port p).tx = some { item := .greet, bytes := b } ∨ (s.eqm.port p).tx = some { item := .rouse, bytes := b } →
        run = .next (freed 0))
    ∧ ∀ c x b, (s.eqm.port p).tx = some { item := .queued c x, bytes := b } →
        (x.sleepResponse = false → run = .next (freed ((x.frame.payload.length + 20 + 127) / 128)))
        ∧ (x.sleepResponse = true → ∃ t, run = .next t ∧ Slept s t)

/-- Admission of a copy whose key holds no slot (R152, R153, R155, R157): the first test that fails discards it under its reason;
a copy that passes joins the tail of its queue and takes its cells. -/
def Obligations.AdmissionTestsInOrder : Prop :=
  ∀ (s : State) (p : Port) (c : Cls) (x : Entry), (∀ k, x.key = some k → s.eqm.keyFree p k) →
    let lost := fun r => s.lost r x.ingress x.frame.kind.code x.frame.srcId
    let up : Prop := s.portJoined p = true ∧ (x.frame.kind.isData = true → s.portMatched p = true)
    let need := (x.frame.payload.length + 20 + 127) / 128 + (if c = .c2 ∨ c = .c3 then 96 else 0)
    let limit := match c with | .c0 => 8 | .c1 => 32 | .c2 => 32 | .c3 => 48
    let held := ((s.eqm.port p).entries.filter (fun y => y.key.isSome)).length
    (s.portJoined p = false → s.offer p c x = lost .linkLost)
    ∧ (s.portJoined p = true → x.frame.kind.isData = true → s.portMatched p = false → s.offer p c x = lost .foreignLink)
    ∧ (up → limit ≤ (s.eqm.queue p c).length → s.offer p c x = lost .queueFull)
    ∧ (up → (s.eqm.queue p c).length < limit → s.eqm.freeCells < need → s.offer p c x = lost .poolExhausted)
    ∧ (up → (s.eqm.queue p c).length < limit → need ≤ s.eqm.freeCells → x.key ≠ none → 64 ≤ held →
        s.offer p c x = lost .slotExhausted)
    ∧ (up → (s.eqm.queue p c).length < limit → need ≤ s.eqm.freeCells → x.key = none ∨ held < 64 →
        s.offer p c x =
          { s with eqm := { s.eqm.setQueue p c (s.eqm.queue p c ++ [x]) with
                            freeCells := s.eqm.freeCells - (x.frame.payload.length + 20 + 127) / 128 } })

/-- Replacement of a queued cyclic copy by a newer one of its key (R158, R159), and the entering of the key in the overtaken report
(R160). -/
def Obligations.CyclicCopyIsReplaced : Prop :=
  (∀ (s : State) (p : Port) (c oc : Cls) (new old : Entry) (k : CyclicKey) (l₁ l₂ : List Entry),
    s.portJoined p = true → s.portMatched p = true → new.key = some k → old.key = some k →
    s.eqm.queue p oc = l₁ ++ old :: l₂ → (s.eqm.setQueue p oc (l₁ ++ l₂)).keyFree p k →
    let lost := fun r => s.lost r new.ingress new.frame.kind.code new.frame.srcId
    let taken := fun (q : Eqm) =>
      { s with eqm := ({ q with freeCells := s.eqm.freeCells + old.cells - new.cells }).enterOvertaken k p }
    let reserve := if c = .c2 ∨ c = .c3 then 96 else 0
    (oc = c → new.cells ≤ old.cells ∨ new.cells + reserve ≤ s.eqm.freeCells + old.cells →
      s.offer p c new = taken (s.eqm.setQueue p c (l₁ ++ new :: l₂)))
    ∧ (oc = c → old.cells < new.cells → s.eqm.freeCells + old.cells < new.cells + reserve →
        s.offer p c new = lost .poolExhausted)
    ∧ (oc ≠ c → c.limit ≤ (s.eqm.queue p c).length → s.offer p c new = lost .queueFull)
    ∧ (oc ≠ c → (s.eqm.queue p c).length < c.limit → s.eqm.freeCells + old.cells < new.cells + reserve →
        s.offer p c new = lost .poolExhausted)
    ∧ (oc ≠ c → (s.eqm.queue p c).length < c.limit → new.cells + reserve ≤ s.eqm.freeCells + old.cells →
        s.offer p c new = taken ((s.eqm.setQueue p oc (l₁ ++ l₂)).setQueue p c (s.eqm.queue p c ++ [new]))))
  ∧ ∀ (q : Eqm) (k : CyclicKey) (p : Port),
      ((∀ x ∈ q.overtaken, ¬ (x.key = k ∧ x.port = p)) → q.overtaken.length < 16 →
        q.enterOvertaken k p = { q with overtaken := q.overtaken ++ [{ key := k, port := p, count := 1 }] })
      ∧ ((∀ x ∈ q.overtaken, ¬ (x.key = k ∧ x.port = p)) → 16 ≤ q.overtaken.length →
          q.enterOvertaken k p = { q with overflow := true })
      ∧ ∀ l₁ l₂ n, q.overtaken = l₁ ++ { key := k, port := p, count := n } :: l₂ →
          (∀ x ∈ l₁ ++ l₂, ¬ (x.key = k ∧ x.port = p)) →
          q.enterOvertaken k p =
            { q with overtaken := l₁ ++ { key := k, port := p, count := if n < 255 then n + 1 else n } :: l₂ }

/-! ## Check unit, staging timer and grace timer -/

/-- BLOCK_FOLD_COMPLETION and FINISH_COMPLETION (R85, R95, R97): the fold context is written; the computed word decides between
CONFIRMED with DONE and EMPTY with CHECK_MISMATCH. A completion without its job changes nothing. -/
def Obligations.FoldCompletions : Prop :=
  ∀ s : State, s.served →
    (∀ w l b, s.su.job = .blockFold w l → s.su.staging = .filling b →
      exec .blockFoldCompletion s = .next
        { s with su := { s.su with staging := .filling { b with context := crcFold w l }, job := .idle } })
    ∧ ((∀ w l, s.su.job ≠ .blockFold w l) → exec .blockFoldCompletion s = .next s)
    ∧ (∀ w l b t, s.su.job = .finish w l → s.su.staging = .confirming b t →
        let reply : ReplyTo :=
          { port := t.port, sender := b.owner, seqTag := t.seqTag, requestTag := t.requestTag, code := 0x22 }
        let word := crcFold w l
        (word = t.expected →
          exec .finishCompletion s = .next
            (({ s with su :=
              { staging := .confirmed b { generation := t.generation, count := t.count, check := word, context := b.context
                                          owner := b.owner }
                job := .idle, timer := startMs s.cu.timing.stagingTimeout } }).answer reply .done (Word.bytes word)))
        ∧ (word ≠ t.expected →
            exec .finishCompletion s = .next
              (({ s with su := { staging := .empty, job := .idle, timer := none }
                         cu := { s.cu with refusals := saturate s.cu.refusals } }).answer reply .checkMismatch
                (Word.bytes word))))
    ∧ ((∀ w l, s.su.job ≠ .finish w l) → exec .finishCompletion s = .next s)

/-- STAGING_TIMER_EXPIRY (R99, R102, R103): when the staging timeout has passed, EMPTY from every state; a CONFIRM in progress is answered
STAGING_STATE and counted. A timer that is stopped or has time left, as after a LOAD_RECORDS that restarted it, does not expire (log 3,
log 4). -/
def Obligations.StagingTimerExpiryEmptiesStaging : Prop :=
  ∀ s : State, s.served →
    let emptied := fun (t : State) => { t with su := { staging := .empty, job := .idle, timer := none } }
    (s.su.timer ≠ some 0 → exec .stagingTimerExpiry s = .next s)
    ∧ (s.su.timer = some 0 → (∀ b t, s.su.staging ≠ .confirming b t) → exec .stagingTimerExpiry s = .next (emptied s))
    ∧ ∀ b t, s.su.timer = some 0 → s.su.staging = .confirming b t →
        exec .stagingTimerExpiry s = .next
          (emptied (({ s with cu := { s.cu with refusals := saturate s.cu.refusals } }).answer
            { port := t.port, sender := b.owner, seqTag := t.seqTag, requestTag := t.requestTag, code := 0x22 }
            .stagingState []))

/-- GRACE_TIMER_EXPIRY (R123) drops the prior roster and changes nothing else; a data frame of the former prior generation is discarded
as STALE_GENERATION after it, and was translated before it. A grace timer that is stopped or has time left, as after an enactment taken
first (R109), does not expire (log 3, log 4). -/
def Obligations.GraceExpiryDropsPriorRoster : Prop :=
  (∀ s : State, s.served → s.ru.grace ≠ some 0 → exec .graceTimerExpiry s = .next s)
  ∧ ∀ (s t : State), s.served → s.ru.grace = some 0 → t = { s with ru := { s.ru with prior := none, grace := none } } →
    exec .graceTimerExpiry s = .next t
    ∧ ∀ (e : End) (bytes : List Byte) (f : Frame) (p : PriorRoster),
        s.power = .active → parseFrame bytes = some f → f.kind.isData = true → s.enactsNothing f.generation →
        s.ru.prior = some p → f.generation = p.generation → p.generation ≠ s.ru.active.generation →
        exec (.arrivalOnCouplerPort e bytes) t
          = .next (t.lost .staleGeneration (.port (End.toPort e)) f.kind.code f.srcId)
        ∧ ∀ (f' : Frame) (bytes' : List Byte), Translates p.records s.ru.active.records s.ru.active.generation f f' →
            parseFrame bytes' = some f' → s.enactsNothing f'.generation →
            exec (.arrivalOnCouplerPort e bytes) s = exec (.arrivalOnCouplerPort e bytes') s

/-! ## Management commands -/

/-- SET_IDENTITY (R177, R44). -/
def Obligations.SetIdentityLoadsOnce : Prop :=
  ∀ (r : Request) (s : State), s.served → s.passes .setIdentity r → ¬ badParams .setIdentity r.params →
    (s.cu.loaded = true →
      exec (.setIdentity r) s = .next
        (({ s with cu := { s.cu with refusals := saturate s.cu.refusals } }).respond r 0x01 .identitySet
          (Word.bytes s.cu.identity)))
    ∧ (s.cu.loaded = false →
        exec (.setIdentity r) s = .next
          (({ s with
              cu := { s.cu with identity := wordAt r.params 0, loaded := true }
              clmA := (if s.clmA.link = LinkState.dark ∧ s.lines.presenceA = true then
                         { s.clmA with link := .settling, settle := startMs s.cu.timing.settleTime } else s.clmA)
              clmB := (if s.clmB.link = LinkState.dark ∧ s.lines.presenceB = true then
                         { s.clmB with link := .settling, settle := startMs s.cu.timing.settleTime } else s.clmB) }).respond
            r 0x01 .done (Word.bytes (wordAt r.params 0))))

/-- SLEEP (R48, R178): the first is answered behind what waits and marks the sleep pending; where its response is refused admission
the part sleeps at once; one while a sleep is pending is answered without the flag. -/
def Obligations.SleepIsAnsweredThenTaken : Prop :=
  ∀ (r : Request) (s : State), s.served → s.passes .sleep r → r.params = [] →
    let x := fun flag =>
      { controlEntry .internal (s.buildReply { port := .c, sender := 0, seqTag := r.seqTag, requestTag := r.requestTag, code := 0x02 }
          .done []) with sleepResponse := flag }
    let room := (s.eqm.queue .c .c0).length < 8 ∧ 1 ≤ s.eqm.freeCells
    let pending := { s with cu := { s.cu with sleepPending := true } }
    (s.cu.sleepPending = true → exec (.sleep r) s = .next (s.offer .c .c0 (x false)))
    ∧ (s.cu.sleepPending = false → room →
        exec (.sleep r) s = .next
          { pending with eqm := { s.eqm.setQueue .c .c0 (s.eqm.queue .c .c0 ++ [x true]) with
                                  freeCells := s.eqm.freeCells - 1 } })
    ∧ (s.cu.sleepPending = false → ¬ room →
        ∃ t, exec (.sleep r) s = .next t ∧ Slept (pending.offer .c .c0 (x true)) t)

/-- RELEASE_WAKE (R179), with READ_CAPTURE before or after it. -/
def Obligations.ReleaseWakeEmptiesCapture : Prop :=
  ∀ (r : Request) (s : State), s.served → s.passes .releaseWake r →
    (r.params ≠ [] →
      exec (.releaseWake r) s = .next
        (({ s with cu := { s.cu with refusals := saturate s.cu.refusals } }).respond r 0x03 .badParameter []))
    ∧ (r.params = [] →
        ∃ t, exec (.releaseWake r) s = .next t
          ∧ t = ({ s with rouse := { capture := none, wakeFlag := false } }).respond r 0x03 .done
                  [if s.rouse.capture = none then 0x00 else 0x01]
          ∧ t.rouse.capture = none ∧ t.rouse.wakeFlag = false ∧ t.wakeOutput = false
          ∧ ∀ q : Request, q.params = [] →
              (s.passes .readCapture q →
                exec (.readCapture q) s = .next (s.respond q 0x12 .done (captureResult s.rouse.capture)))
              ∧ (t.passes .readCapture q →
                  exec (.readCapture q) t = .next (t.begun.respond q 0x12 .done (List.replicate 72 0))))

/-- R138: the reset rule, after power-on reset and RESTART; the defaults it leaves in force; and the table kept by SLEEP and waking. -/
def Obligations.ResetRuleTable : Prop :=
  let resetRule : Rule :=
    { enabled := false, kindProcess := false, kindMessage := false, kindBulk := false, portA := false, portB := false
      portC := false, minLength := 20, mask := 0, values := List.replicate 32 0, cls := .c1, cyclic := false
      localCopy := false, discard := false }
  (∀ s : State, ∃ t, exec .powerOnReset s = .next t ∧ t.cm.rules = List.replicate 16 resetRule)
  ∧ (∀ (s : State) (r : Request), s.passes .restart r → r.params = [] →
      ∃ t, exec (.restart r) s = .next t ∧ t.cm.rules = List.replicate 16 resetRule)
  ∧ resetRule.image = [0x00, 0x00, 0x00, 0x01, 0x00, 0x14] ++ List.replicate 36 0
  ∧ (∀ (m : ClassMatcher) (p : Port) (f : Frame), m.rules = List.replicate 16 resetRule →
      (f.kind = .process → m.classify p f = { cls := .c1, cyclic := true, localCopy := false, discard := false })
      ∧ (f.kind = .message → m.classify p f = { cls := .c2, cyclic := false, localCopy := false, discard := false })
      ∧ (f.kind = .bulk → m.classify p f = { cls := .c3, cyclic := false, localCopy := false, discard := false }))
  ∧ (∀ (i : Instr) (s t : State), exec i s = .next t → s.power = .active → t.power = .dormant → t.cm.rules = s.cm.rules)
  ∧ (∀ (i : Instr) (s t : State), exec i s = .next t → s.power = .dormant → t.power = .active → i ≠ .powerOnReset →
      t.cm.rules = s.cm.rules)

/-- READ_STATE and READ_STATE_CLEAR (R182, R183, R16): the 159 bytes of the table of R183, taken at the execution; the option 01h then
clears the tallies and keeps the last discard record. -/
def Obligations.ReadStateReturnsAndClears : Prop :=
  ∀ (r : Request) (s : State), s.served → s.passes .readState r →
    s.readsAs s.readResult
    ∧ (r.params = [0x00] → exec (.readState r) s = .next (s.respond r 0x10 .done s.readResult))
    ∧ (r.params = [0x01] →
        exec (.readStateClear r) s = .next
          (({ s with
              discards := { s.discards with tallies := .zero }
              cu := { s.cu with refusals := 0 } }).respond r 0x10 .done s.readResult))
    ∧ ∀ x, Tallies.zero.get x = 0

/-- R185: READ_CAPTURE returns 72 bytes in the layout of the rule and does not empty the capture. -/
def Obligations.ReadCaptureReturnsCapture : Prop :=
  ∀ (r : Request) (s : State), s.served → s.passes .readCapture r →
    (r.params ≠ [] →
      exec (.readCapture r) s = .next
        (({ s with cu := { s.cu with refusals := saturate s.cu.refusals } }).respond r 0x12 .badParameter []))
    ∧ (r.params = [] →
        ∃ (t : State) (d : List Byte), exec (.readCapture r) s = .next t ∧ t = s.respond r 0x12 .done d
          ∧ d.length = 72 ∧ t.rouse = s.rouse
          ∧ (s.rouse.capture = none → d = List.replicate 72 0)
          ∧ ∀ c, s.rouse.capture = some c → c.bytes.length = min 64 c.length →
              byteAt d 0 = 0x01 ∧ halfAt d 1 = BitVec.ofNat 16 c.length ∧ byteAt d 3 = End.code c.arrival
              ∧ wordAt d 4 = c.clock
              ∧ ∀ i, i < 64 → byteAt d (8 + i) = if i < c.length then byteAt c.bytes i else 0)

/-- READ_ROSTER, READ_OVERTAKEN and RULE_READ (R147, R149, R184, R186). Reading the overtaken report empties it. The image of a rule has
the 42-byte layout of 01 section 1.10, and after a RULE_WRITE the read of its index returns the image written with its reserved bits 0.
Which bit of the mask covers which byte is the model's reading (log 18). -/
def Obligations.ReadsOfRosterReportAndRules : Prop :=
  (∀ (r : Request) (s : State) (sel first count : Byte), s.served → s.passes .readRoster r → r.params = [sel, first, count] →
    1 ≤ first.toNat → first.toNat ≤ 24 → 1 ≤ count.toNat → count.toNat ≤ 24 →
    let answered := fun (g : Half) (rs : List Record) =>
      exec (.readRoster r) s = .next
        (s.respond r 0x11 .done
          ([sel] ++ Half.bytes g ++ [natByte rs.length]
            ++ recordImages (rs.filter (fun x => decide (first.toNat ≤ x.position ∧ x.position < first.toNat + count.toNat)))))
    (sel = 0x01 → answered s.ru.active.generation s.ru.active.records)
    ∧ (sel = 0x02 → ∀ p, s.ru.prior = some p → answered p.generation p.records)
    ∧ (sel = 0x02 → s.ru.prior = none → answered 0 [])
    ∧ (sel = 0x03 → s.su.staging = .empty → answered 0 [])
    ∧ (sel = 0x03 → ∀ b, s.su.staging = .filling b → answered 0 b.records)
    ∧ (sel = 0x03 → ∀ b t, s.su.staging = .confirming b t → answered t.generation b.records)
    ∧ (sel = 0x03 → ∀ b c, s.su.staging = .confirmed b c → answered c.generation b.records))
  ∧ (∀ (r : Request) (s : State), s.served → s.passes .readOvertaken r → r.params = [] →
      exec (.readOvertaken r) s = .next
        (({ s with eqm := { s.eqm with overtaken := [], overflow := false } }).respond r 0x13 .done
          ([if s.eqm.overflow then 0x01 else 0x00, natByte s.eqm.overtaken.length]
            ++ (s.eqm.overtaken.map (fun (x : OvertakenEntry) =>
                 Word.bytes x.key.identity ++ Half.bytes x.key.publication ++ [Port.code x.port, natByte x.count])).flatten)))
  ∧ (∀ (r : Request) (s : State) (i : Byte) (x : Rule), s.served → s.passes .ruleRead r → r.params = [i] →
      s.cm.rules[i.toNat]? = some x →
      exec (.ruleRead r) s = .next
        (s.respond r 0x14 .done ([i] ++ x.image ++ [s.cm.policy1.code, s.cm.policy2.code, s.cm.policy3.code])))
  ∧ (∀ x : Rule, x.values.length = 32 → x.minLength < 65536 →
      let cls := match x.cls with | .c1 => 1 | .c2 => 2 | .c3 => 3
      x.image.length = 42 ∧ byteAt x.image 0 = natByte x.enabled.toNat
      ∧ byteAt x.image 1 = natByte (x.kindProcess.toNat + 2 * x.kindMessage.toNat + 4 * x.kindBulk.toNat)
      ∧ byteAt x.image 2 = natByte (x.portA.toNat + 2 * x.portB.toNat + 4 * x.portC.toNat)
      ∧ byteAt x.image 3 = natByte (cls + 4 * x.cyclic.toNat + 8 * x.localCopy.toNat + 16 * x.discard.toNat)
      ∧ (halfAt x.image 4).toNat = x.minLength ∧ wordAt x.image 6 = x.mask ∧ x.image.drop 10 = x.values)
  ∧ ∀ (r q : Request) (s : State), s.served → s.passes .ruleWrite r → ¬ badParams .ruleWrite r.params →
      s.cm.rules.length = 16 → q.params = [byteAt r.params 0] →
      ∃ t, exec (.ruleWrite r) s = .next t
        ∧ (t.passes .ruleRead q →
            exec (.ruleRead q) t = .next
              (t.begun.respond q 0x14 .done
                ([byteAt r.params 0, byteAt r.params 1 &&& 0x01, byteAt r.params 2 &&& 0x07, byteAt r.params 3 &&& 0x07,
                  byteAt r.params 4 &&& 0x1F] ++ r.params.drop 5
                  ++ [s.cm.policy1.code, s.cm.policy2.code, s.cm.policy3.code])))

/-- R90: LOAD_BEGIN_FRESH, with R92 first where the staging is not EMPTY; from a sender that is not the owner it is refused (R89). -/
def Obligations.LoadBeginFreshOpensStaging : Prop :=
  ∀ (r : Request) (s : State), s.served → s.passes .loadBegin r → r.params = [0x01] →
    (s.su.staging = .empty ∨ (∃ b, s.su.staging.body? = some b ∧ b.owner = Request.sender r) →
      let u := s.answerAbandoned
      exec (.loadBeginFresh r) s = .next
        (({ u with su :=
            { staging := .filling { owner := Request.sender r, mode := .fresh, records := [], context := 0xFFFFFFFF }
              job := .idle, timer := startMs s.cu.timing.stagingTimeout } }).respond r 0x20 .done [0, 1])
      ∧ ((∀ b t, s.su.staging ≠ .confirming b t) → u = s))
    ∧ ∀ b, s.su.staging.body? = some b → b.owner ≠ Request.sender r →
        exec (.loadBeginFresh r) s = .next
          (({ s with cu := { s.cu with refusals := saturate s.cu.refusals } }).respond r 0x20 .stagingOwned (Word.bytes b.owner))

/-- LOAD_BEGIN_EXTEND (R89, R91, R92), and what a restart of a CONFIRMING staging answers first. -/
def Obligations.LoadBeginExtendCopiesActiveRoster : Prop :=
  ∀ (r : Request) (s : State), s.served → s.passes .loadBegin r → r.params = [0x02] →
    let open? : Prop := s.su.staging = .empty ∨ (∃ b, s.su.staging.body? = some b ∧ b.owner = Request.sender r)
    let u := s.answerAbandoned
    let refused := fun o d =>
      ({ s with cu := { s.cu with refusals := saturate s.cu.refusals } }).respond r 0x20 o d
    (∀ b, s.su.staging.body? = some b → b.owner ≠ Request.sender r →
      exec (.loadBeginExtend r) s = .next (refused .stagingOwned (Word.bytes b.owner)))
    ∧ (open? → s.ru.active.records = [] → exec (.loadBeginExtend r) s = .next (refused .noActive []))
    ∧ (open? → s.ru.active.records ≠ [] → r.port ≠ .c → s.ru.authority ≠ .orphaned → ¬ s.sentByMaster r →
        exec (.loadBeginExtend r) s = .next (refused .notAuthorised []))
    ∧ (open? → s.ru.active.records ≠ [] → r.port = .c ∨ s.ru.authority = .orphaned ∨ s.sentByMaster r →
        exec (.loadBeginExtend r) s = .next
          (({ u with su :=
              { staging := .filling { owner := Request.sender r, mode := .extend, records := s.ru.active.records
                                      context := s.ru.active.context }
                job := .idle, timer := startMs s.cu.timing.stagingTimeout } }).respond r 0x20 .done
            [natByte s.ru.active.records.length, natByte (s.ru.active.records.length + 1)]))
    ∧ ∀ b t, s.su.staging = .confirming b t →
        u = ({ s with cu := { s.cu with refusals := saturate s.cu.refusals } }).answer
              { port := t.port, sender := b.owner, seqTag := t.seqTag, requestTag := t.requestTag, code := 0x22 }
              .stagingState []

/-- LOAD_RECORDS (R93 to R95): a valid block is appended and its fold started; the first test of R93 that fails refuses the block, and
the first record that is not valid is named by its index. -/
def Obligations.LoadRecordsAppendsBlock : Prop :=
  ∀ (r : Request) (s : State) (n : Byte) (images : List Byte),
    s.served → s.passes .loadRecords r → r.params = n :: images → 1 ≤ n.toNat → n.toNat ≤ 4 → images.length = 6 * n.toNat →
    let refused := fun (o : ReplyCode) (d : List Byte) =>
      exec (.loadRecords r) s = .next (({ s with cu := { s.cu with refusals := saturate s.cu.refusals } }).respond r 0x21 o d)
    ((∀ b, s.su.staging ≠ .filling b) → refused .stagingState [])
    ∧ ∀ b, s.su.staging = .filling b →
        let held := b.records.length
        let block := (List.range n.toNat).map (fun i => recordAt images (6 * i))
        let valid := fun i =>
          (recordAt images (6 * i)).position = held + 1 + i
            ∧ (recordAt images (6 * i)).identity ≠ 0 ∧ (recordAt images (6 * i)).identity ≠ 0xFFFFFFFF
            ∧ byteAt images (6 * i + 5) &&& 0xFC#8 = 0
            ∧ (∀ x ∈ b.records, x.identity ≠ (recordAt images (6 * i)).identity)
            ∧ ∀ j, j < i → (recordAt images (6 * j)).identity ≠ (recordAt images (6 * i)).identity
        (b.owner ≠ Request.sender r → refused .stagingOwned (Word.bytes b.owner))
        ∧ (b.owner = Request.sender r → s.su.job ≠ .idle → refused .busy [])
        ∧ (b.owner = Request.sender r → s.su.job = .idle → 24 < held + n.toNat → refused .rosterFull [natByte held])
        ∧ (b.owner = Request.sender r → s.su.job = .idle → held + n.toNat ≤ 24 →
            (∀ i, i < n.toNat → (∀ j, j < i → valid j) → ¬ valid i → refused .badRecord [natByte (i + 1)])
            ∧ ((∀ i, i < n.toNat → valid i) →
                exec (.loadRecords r) s = .next
                  (({ s with su := { staging := .filling { b with records := b.records ++ block }
                                     job := .blockFold b.context images, timer := startMs s.cu.timing.stagingTimeout } }).respond
                    r 0x21 .done [natByte (held + n.toNat), natByte (held + n.toNat + 1)])))

/-- CONFIRM (R96): the first test that fails refuses it; one that passes its tests starts the finish and is not answered now. -/
def Obligations.ConfirmStartsFinish : Prop :=
  ∀ (r : Request) (s : State), s.served → s.passes .confirm r → r.params.length = 7 →
    let refused := fun (o : ReplyCode) (d : List Byte) =>
      exec (.confirm r) s = .next (({ s with cu := { s.cu with refusals := saturate s.cu.refusals } }).respond r 0x22 o d)
    ((∀ b, s.su.staging ≠ .filling b) → refused .stagingState [])
    ∧ ∀ b, s.su.staging = .filling b →
        let t2 : Prop := b.owner = Request.sender r
        let t3 : Prop := s.su.job = .idle
        let t4 : Prop := (byteAt r.params 2).toNat = b.records.length
        let t5 : Prop := halfAt r.params 0 ≠ 0 ∧ halfAt r.params 0 ≠ s.ru.active.generation
        let t6 : Prop := (b.records.filter (fun x => x.master)).length = 1
        let t7 : Prop := ∃ x ∈ b.records, x.identity = s.ownId
        let t8 : Prop := s.ru.authority ≠ .governed ∨ masterIdentity s.ru.active.records = some b.owner
          ∨ (∃ x ∈ b.records, masterIdentity s.ru.active.records = some x.identity)
        (¬ t2 → refused .stagingOwned (Word.bytes b.owner))
        ∧ (t2 → ¬ t3 → refused .busy [])
        ∧ (t2 → t3 → ¬ t4 → refused .countMismatch [])
        ∧ (t2 → t3 → t4 → ¬ t5 → refused .generationInvalid [])
        ∧ (t2 → t3 → t4 → t5 → ¬ t6 → refused .masterCount [])
        ∧ (t2 → t3 → t4 → t5 → t6 → ¬ t7 → refused .noSelf [])
        ∧ (t2 → t3 → t4 → t5 → t6 → t7 → ¬ t8 → refused .masterAbsent [])
        ∧ (t2 → t3 → t4 → t5 → t6 → t7 → t8 →
            exec (.confirm r) s = .next
              { s with su :=
                { staging := .confirming b
                    { generation := halfAt r.params 0, count := b.records.length, expected := wordAt r.params 3
                      requestTag := r.requestTag, seqTag := r.seqTag, port := r.port }
                  job := .finish b.context [byteAt r.params 0, byteAt r.params 1, byteAt r.params 2, 0xA5]
                  timer := startMs s.cu.timing.stagingTimeout } })

/-- DISCARD (R100, R101): taken from the owner, the master and port C, and in EMPTY from every sender. -/
def Obligations.DiscardEmptiesStaging : Prop :=
  ∀ (r : Request) (s : State), s.served → s.passes .discard r → r.params = [] →
    let granted : Prop := s.su.staging = .empty ∨ (∃ b, s.su.staging.body? = some b ∧ b.owner = Request.sender r)
      ∨ s.sentByMaster r ∨ r.port = .c
    (granted →
      exec (.discard r) s = .next
        (({ s.answerAbandoned with su := { staging := .empty, job := .idle, timer := none } }).respond r 0x23 .done
          [s.su.staging.code]))
    ∧ (¬ granted → ∀ b, s.su.staging.body? = some b →
        exec (.discard r) s = .next
          (({ s with cu := { s.cu with refusals := saturate s.cu.refusals } }).respond r 0x23 .stagingOwned
            (Word.bytes b.owner)))

/-- RULE_WRITE and SET_CLASS (R147, R150; the mask's bits: log 18). -/
def Obligations.RuleWriteAndSetClass : Prop :=
  (∀ (r : Request) (s : State), s.served → s.passes .ruleWrite r → ¬ badParams .ruleWrite r.params →
    let o := byteAt r.params 4
    let x : Rule :=
      { enabled := (byteAt r.params 1).getLsbD 0
        kindProcess := (byteAt r.params 2).getLsbD 0, kindMessage := (byteAt r.params 2).getLsbD 1
        kindBulk := (byteAt r.params 2).getLsbD 2
        portA := (byteAt r.params 3).getLsbD 0, portB := (byteAt r.params 3).getLsbD 1, portC := (byteAt r.params 3).getLsbD 2
        minLength := (halfAt r.params 5).toNat, mask := wordAt r.params 7, values := r.params.drop 11
        cls := if o &&& 0x03#8 = 0x01 then .c1 else if o &&& 0x03#8 = 0x02 then .c2 else .c3
        cyclic := o.getLsbD 2, localCopy := o.getLsbD 3, discard := o.getLsbD 4 }
    exec (.ruleWrite r) s = .next
      (({ s with cm := { s.cm with rules := s.cm.rules.set (byteAt r.params 0).toNat x } }).respond r 0x30 .done
        [byteAt r.params 0]))
  ∧ ∀ (r : Request) (s : State) (c : DataClass) (q : Policy), s.served → s.passes .setClass r →
      r.params = [DataClass.code c, Policy.code q] →
      exec (.setClass r) s = .next
        (({ s with cm := (match c with
            | .c1 => { s.cm with policy1 := q } | .c2 => { s.cm with policy2 := q } | .c3 => { s.cm with policy3 := q }) }).respond
          r 0x34 .done [(s.cm.policy c).code])

/-- HOLD and RELEASE (R167, R168, R187). After a RELEASE an idle port with a frame of a released class begins it, and then the answer is
admitted, in that order by the model's reading (log 27). -/
def Obligations.HoldAndRelease : Prop :=
  ∀ (r : Request) (s : State) (b : Byte), s.served → r.params = [b] → b &&& 0xF1#8 = 0 →
    let held := fun (h : ClassSet) => ({ s with eqm := { s.eqm with hold := h } } : State)
    let answered := fun (t : State) (code : Byte) (h : ClassSet) =>
      let inEffect : ClassSet :=
        { c1 := h.c1 && !s.eqm.sends .c1, c2 := h.c2 && !s.eqm.sends .c2, c3 := h.c3 && !s.eqm.sends .c3 }
      t.respond r code .done [h.byte, inEffect.byte]
    let hold := s.eqm.hold
    let more : ClassSet := { c1 := hold.c1 || b.getLsbD 1, c2 := hold.c2 || b.getLsbD 2, c3 := hold.c3 || b.getLsbD 3 }
    let less : ClassSet := { c1 := hold.c1 && !b.getLsbD 1, c2 := hold.c2 && !b.getLsbD 2, c3 := hold.c3 && !b.getLsbD 3 }
    (s.passes .hold r → exec (.hold r) s = .next (answered (held more) 0x31 more))
    ∧ (s.passes .release r → exec (.release r) s = .next (answered (held less).begun 0x32 less))

/-- SET_TIMING (R188, R22): one parameter set and its previous value answered; a greet period restarts the running greet timers, but for
one whose expiry is due. That this expiry still occurs is the model's reading of R189 beside R22 (log 24). -/
def Obligations.SetTimingSetsOneParameter : Prop :=
  ∀ (r : Request) (s : State) (x : Parameter), s.served → s.passes .setTiming r → r.params.length = 3 →
    parameterOfCode (byteAt r.params 0) = some x →
    let v := (halfAt r.params 1).toNat
    x.low ≤ v → v ≤ x.high →
    let restart := fun (c : Clm) => if x = .greetPeriod ∧ c.greet ≠ none ∧ c.greet ≠ some 0 then { c with greet := startMs v } else c
    exec (.setTiming r) s = .next
      (({ s with cu := { s.cu with timing := s.cu.timing.set v x }, clmA := restart s.clmA, clmB := restart s.clmB }).respond
        r 0x33 .done (natHalf (s.cu.timing.get x)))
    ∧ (s.cu.timing.set v x).get x = v ∧ ∀ y, y ≠ x → (s.cu.timing.set v x).get y = s.cu.timing.get y

/-- The common tests in their order (R172), UNKNOWN_COMMAND, and the requests that do not reach the command unit: a refusal counts
once and is answered, and changes nothing else (R175, R176). A request row is the hand-over of its code to the command unit (R171). -/
def Obligations.CommonTestsInOrder : Prop :=
  (∀ (code : Byte) (r : Request) (s : State), s.served → s.hands r → code ∉ definedCodes →
    exec (.unknownCommand code r) s = .next
      (({ s with cu := { s.cu with refusals := saturate s.cu.refusals } }).respond r code .unknownCommand []))
  ∧ (∀ (code : Byte) (r : Request) (s : State), s.served → s.hands r → exec (.unknownCommand code r) s = .next (s.handleCode code r))
  ∧ (∀ (code : Byte) (r : Request) (s : State), s.served → ¬ s.hands r → exec (.unknownCommand code r) s = .next s)
  ∧ ∀ (i : Instr) (c : Command) (r : Request) (s : State), s.served → Instr.asRequest i = some (c, r) →
      let refused := fun o =>
        exec i s = .next (({ s with cu := { s.cu with refusals := saturate s.cu.refusals } }).respond r c.code o [])
      (¬ s.hands r → exec i s = .next s)
      ∧ (s.hands r → exec i s = .next (s.handleCode c.code r))
      ∧ (s.hands r →
          (¬ Request.passesTarget r c → refused .targetNotPermitted)
          ∧ (Request.passesTarget r c → ¬ Request.passesPort r c → refused .portNotPermitted)
          ∧ (Request.passesTarget r c → Request.passesPort r c → ¬ s.passesIdentity c → refused .identityUnset)
          ∧ (Request.passesTarget r c → Request.passesPort r c → s.passesIdentity c → ¬ Request.passesSender r c →
              refused .notAuthorised)
          ∧ (Request.passesTarget r c → Request.passesPort r c → s.passesIdentity c → Request.passesSender r c →
              ¬ s.passesAuthority c r → refused .notAuthorised))

/-- A request that passes the common tests with a parameter field its command refuses is answered BAD_PARAMETER and changes nothing
but the refusal tally. RULE_READ is asked of a rule table of sixteen rules (R137). -/
def Obligations.BadParametersAreRefused : Prop :=
  ∀ (i : Instr) (c : Command) (r : Request) (s : State), s.served → Instr.asRequest i = some (c, r) → s.passes c r →
    badParams c r.params → s.cm.rules.length = 16 →
    exec i s = .next
      (({ s with cu := { s.cu with refusals := saturate s.cu.refusals } }).respond r c.code .badParameter [])

/-- The response to a request (R174, R175, R80): none for target ALL; one copy in C0 of port C for a request of port C; for a request
of a coupler port one copy flooded through every JOINED or FADING coupler port, or one for port C where its target is this car. -/
def Obligations.ResponsesAreBuiltAndRouted : Prop :=
  ∀ (r : Request) (s : State) (code : Byte) (o : ReplyCode) (d : List Byte),
    let own : Word := if s.cu.loaded then s.cu.identity else 0
    let target : Word := if r.port = .c then own else r.source
    let x := controlEntry .internal
      { kind := .mgmtRsp, hop := 31, generation := s.ru.active.generation, dstPos := 0, dstDev := 0
        srcPos := natByte s.ownPos, srcDev := 0, srcId := own, tag := r.seqTag
        payload := Word.bytes target ++ Word.bytes own ++ Half.bytes r.requestTag ++ [code, o.code] ++ d }
    let t1 := if s.clmA.link.isJoined then s.offer .a .c0 x else s
    (r.target = targetAll → s.respond r code o d = s)
    ∧ (r.target ≠ targetAll → r.port = .c → s.respond r code o d = s.offer .c .c0 x)
    ∧ (r.target ≠ targetAll → r.port ≠ .c → s.cu.loaded = true ∧ r.source = s.cu.identity →
        s.respond r code o d = s.offer .c .c0 x)
    ∧ (r.target ≠ targetAll → r.port ≠ .c → ¬ (s.cu.loaded = true ∧ r.source = s.cu.identity) →
        s.respond r code o d = if s.clmB.link.isJoined then t1.offer .b .c0 x else t1)

/-! ## Invariants -/

/-- Every invariant below holds right after power-on reset. -/
def Obligations.InvariantsHoldAtReset : Prop :=
  CellsConserved State.reset ∧ QueuesBounded State.reset ∧ SlotsSound State.reset ∧ OvertakenSound State.reset
    ∧ CouplerQueues State.reset ∧ DormantQuiet State.reset ∧ LinksSound State.reset ∧ CountsInRange State.reset
    ∧ RulesSound State.reset ∧ WakeLatched State.reset ∧ SleepCarried State.reset ∧ IdentityGuards State.reset
    ∧ Judged State.reset ∧ RostersSound State.reset ∧ CutMapSound State.reset

/-- R152: every step keeps the 768 cells. -/
def Obligations.StepConservesCells : Prop := ∀ s t : State, CellsConserved s → step s = .next t → CellsConserved t

/-- R154, R157, R160: every step keeps the queue limits, the cyclic slots and the overtaken report within their bounds. -/
def Obligations.StepKeepsQueueLimitsAndSlots : Prop :=
  ∀ s t : State, step s = .next t →
    (QueuesBounded s → QueuesBounded t) ∧ (SlotsSound s → SlotsSound t) ∧ (OvertakenSound s → OvertakenSound t)

/-- R155, R162, R165, R166: every step keeps the coupler ports free of frames their link or standing forbids. -/
def Obligations.StepKeepsCouplerPortsClear : Prop :=
  ∀ s t : State, CouplerQueues s → DormantQuiet s → step s = .next t → CouplerQueues t

/-- R19, R27, R29: every step keeps the table of R19 and the tie of the link states to presence and identity. -/
def Obligations.StepKeepsLinkTable : Prop := ∀ s t : State, LinksSound s → step s = .next t → LinksSound t

/-- R19, R22, R137: every step keeps the counts, the timing parameters and the rules in their ranges. -/
def Obligations.StepKeepsConfiguredRanges : Prop :=
  ∀ s t : State, step s = .next t → (CountsInRange s → CountsInRange t) ∧ (RulesSound s → RulesSound t)

/-- R46, R48 to R50, R54, R131: every step keeps a DORMANT part quiet and LISTEN to DORMANT, the wake flag with the capture, and a
pending sleep with the one response that carries it. -/
def Obligations.StepKeepsDormancyAndWakeMarks : Prop :=
  ∀ s t : State, step s = .next t →
    (DormantQuiet s → DormantQuiet t) ∧ (WakeLatched s → WakeLatched t) ∧ (SleepCarried s → SleepCarried t)

/-- R64 to R70: standing, authority and settledness are always those of the links, the roster and the cut map; and while the rosters
are sound, the cut map holds adjacencies from 1 to N-1, each once, with each own adjacency exactly while its end does not stand MATCHED
(R68). -/
def Obligations.StepKeepsJudgements : Prop :=
  ∀ s t : State, step s = .next t →
    (Judged s → IdentityGuards s → Judged t ∧ IdentityGuards t) ∧ (RostersSound s → CutMapSound s → CutMapSound t)

/-- R60, R61, R84 to R86, R97: every step keeps the rosters fit, the staging in its table, and a confirmed check word that of the
staged roster. -/
def Obligations.StepKeepsRostersAndStaging : Prop := ∀ s t : State, RostersSound s → step s = .next t → RostersSound t

end
end

