-- ==== Sys2Proof/Laws/State.lean ====
section
/-! SUPPORT. What each update changes and leaves: one lemma per field per update, true by unfolding once. -/

namespace Sys2Proof.Machine

/-! ## Link monitors -/

@[simp] theorem State.setClm_lines (s : State) (e : End) (c : Clm) : (s.setClm e c).lines = s.lines := by cases e <;> rfl
@[simp] theorem State.setClm_power (s : State) (e : End) (c : Clm) : (s.setClm e c).power = s.power := by cases e <;> rfl
@[simp] theorem State.setClm_clock (s : State) (e : End) (c : Clm) : (s.setClm e c).clock = s.clock := by cases e <;> rfl
@[simp] theorem State.setClm_rouse (s : State) (e : End) (c : Clm) : (s.setClm e c).rouse = s.rouse := by cases e <;> rfl
@[simp] theorem State.setClm_ru (s : State) (e : End) (c : Clm) : (s.setClm e c).ru = s.ru := by cases e <;> rfl
@[simp] theorem State.setClm_ng (s : State) (e : End) (c : Clm) : (s.setClm e c).ng = s.ng := by cases e <;> rfl
@[simp] theorem State.setClm_su (s : State) (e : End) (c : Clm) : (s.setClm e c).su = s.su := by cases e <;> rfl
@[simp] theorem State.setClm_cm (s : State) (e : End) (c : Clm) : (s.setClm e c).cm = s.cm := by cases e <;> rfl
@[simp] theorem State.setClm_eqm (s : State) (e : End) (c : Clm) : (s.setClm e c).eqm = s.eqm := by cases e <;> rfl
@[simp] theorem State.setClm_discards (s : State) (e : End) (c : Clm) : (s.setClm e c).discards = s.discards := by
  cases e <;> rfl
@[simp] theorem State.setClm_cu (s : State) (e : End) (c : Clm) : (s.setClm e c).cu = s.cu := by cases e <;> rfl
@[simp] theorem State.setClm_free (s : State) (e : End) (c : Clm) : (s.setClm e c).free = s.free := by cases e <;> rfl
@[simp] theorem State.setClm_pending (s : State) (e : End) (c : Clm) : (s.setClm e c).pending = s.pending := by
  cases e <;> rfl
@[simp] theorem State.clm_setClm_self (s : State) (e : End) (c : Clm) : (s.setClm e c).clm e = c := by cases e <;> rfl
theorem State.clm_setClm_of_ne (s : State) {e e' : End} (c : Clm) (h : e' ≠ e) : (s.setClm e c).clm e' = s.clm e' := by
  cases e <;> cases e' <;> first | rfl | exact absurd rfl h
theorem State.clm_setClm (s : State) (e e' : End) (c : Clm) : (s.setClm e c).clm e' = if e' = e then c else s.clm e' := by
  cases e <;> cases e' <;> rfl
@[simp] theorem State.setClm_setClm (s : State) (e : End) (c d : Clm) : (s.setClm e c).setClm e d = s.setClm e d := by
  cases e <;> rfl
@[simp] theorem State.setClm_clm (s : State) (e : End) : s.setClm e (s.clm e) = s := by cases e <;> rfl
@[simp] theorem State.setClm_presence (s : State) (e e' : End) (c : Clm) : (s.setClm e c).presence e' = s.presence e' := by
  cases e <;> cases e' <;> rfl

/-! ## Input lines -/

@[simp] theorem State.setPresence_clm (s : State) (e e' : End) (v : Bool) : (s.setPresence e v).clm e' = s.clm e' := by
  cases e <;> cases e' <;> rfl
@[simp] theorem State.setPresence_power (s : State) (e : End) (v : Bool) : (s.setPresence e v).power = s.power := by
  cases e <;> rfl
@[simp] theorem State.setPresence_clock (s : State) (e : End) (v : Bool) : (s.setPresence e v).clock = s.clock := by
  cases e <;> rfl
@[simp] theorem State.setPresence_rouse (s : State) (e : End) (v : Bool) : (s.setPresence e v).rouse = s.rouse := by
  cases e <;> rfl
@[simp] theorem State.setPresence_ru (s : State) (e : End) (v : Bool) : (s.setPresence e v).ru = s.ru := by cases e <;> rfl
@[simp] theorem State.setPresence_ng (s : State) (e : End) (v : Bool) : (s.setPresence e v).ng = s.ng := by cases e <;> rfl
@[simp] theorem State.setPresence_su (s : State) (e : End) (v : Bool) : (s.setPresence e v).su = s.su := by cases e <;> rfl
@[simp] theorem State.setPresence_cm (s : State) (e : End) (v : Bool) : (s.setPresence e v).cm = s.cm := by cases e <;> rfl
@[simp] theorem State.setPresence_eqm (s : State) (e : End) (v : Bool) : (s.setPresence e v).eqm = s.eqm := by
  cases e <;> rfl
@[simp] theorem State.setPresence_discards (s : State) (e : End) (v : Bool) :
    (s.setPresence e v).discards = s.discards := by cases e <;> rfl
@[simp] theorem State.setPresence_cu (s : State) (e : End) (v : Bool) : (s.setPresence e v).cu = s.cu := by cases e <;> rfl
@[simp] theorem State.setPresence_free (s : State) (e : End) (v : Bool) : (s.setPresence e v).free = s.free := by
  cases e <;> rfl
@[simp] theorem State.setPresence_pending (s : State) (e : End) (v : Bool) : (s.setPresence e v).pending = s.pending := by
  cases e <;> rfl
@[simp] theorem State.presence_setPresence_self (s : State) (e : End) (v : Bool) : (s.setPresence e v).presence e = v := by
  cases e <;> rfl

/-! ## Discards -/

@[simp] theorem State.take_lines (s : State) (ds : List Discard) : (s.take ds).lines = s.lines := rfl
@[simp] theorem State.take_power (s : State) (ds : List Discard) : (s.take ds).power = s.power := rfl
@[simp] theorem State.take_clock (s : State) (ds : List Discard) : (s.take ds).clock = s.clock := rfl
@[simp] theorem State.take_clmA (s : State) (ds : List Discard) : (s.take ds).clmA = s.clmA := rfl
@[simp] theorem State.take_clmB (s : State) (ds : List Discard) : (s.take ds).clmB = s.clmB := rfl
@[simp] theorem State.take_clm (s : State) (ds : List Discard) (e : End) : (s.take ds).clm e = s.clm e := by cases e <;> rfl
@[simp] theorem State.take_rouse (s : State) (ds : List Discard) : (s.take ds).rouse = s.rouse := rfl
@[simp] theorem State.take_ru (s : State) (ds : List Discard) : (s.take ds).ru = s.ru := rfl
@[simp] theorem State.take_ng (s : State) (ds : List Discard) : (s.take ds).ng = s.ng := rfl
@[simp] theorem State.take_su (s : State) (ds : List Discard) : (s.take ds).su = s.su := rfl
@[simp] theorem State.take_cm (s : State) (ds : List Discard) : (s.take ds).cm = s.cm := rfl
@[simp] theorem State.take_eqm (s : State) (ds : List Discard) : (s.take ds).eqm = s.eqm := rfl
@[simp] theorem State.take_discards (s : State) (ds : List Discard) :
    (s.take ds).discards = s.discards.addAll s.clock ds := rfl
@[simp] theorem State.take_cu (s : State) (ds : List Discard) : (s.take ds).cu = s.cu := rfl
@[simp] theorem State.take_free (s : State) (ds : List Discard) : (s.take ds).free = s.free := rfl
@[simp] theorem State.take_pending (s : State) (ds : List Discard) : (s.take ds).pending = s.pending := rfl
@[simp] theorem State.take_nil (s : State) : s.take [] = s := rfl
@[simp] theorem DiscardLog.addAll_nil (l : DiscardLog) (c : Word) : l.addAll c [] = l := rfl
@[simp] theorem DiscardLog.addAll_cons (l : DiscardLog) (c : Word) (d : Discard) (ds : List Discard) :
    l.addAll c (d :: ds) = (l.add c d).addAll c ds := rfl

/-- A discard raises its own tally. -/
@[simp] theorem Tallies.get_raise_self (t : Tallies) (r : Reason) : (t.raise r).get r = saturate (t.get r) := by
  cases r <;> rfl

/-- A discard leaves the tallies of the other reasons. -/
theorem Tallies.get_raise_of_ne (t : Tallies) {r r' : Reason} (h : r' ≠ r) : (t.raise r).get r' = t.get r' := by
  cases r <;> cases r' <;> first | rfl | exact absurd rfl h

/-! ## Egress -/

@[simp] theorem Eqm.port_setPort_self (q : Eqm) (p : Port) (x : PortQueues) : (q.setPort p x).port p = x := by
  cases p <;> rfl
theorem Eqm.port_setPort (q : Eqm) (p p' : Port) (x : PortQueues) :
    (q.setPort p x).port p' = if p' = p then x else q.port p' := by cases p <;> cases p' <;> rfl
@[simp] theorem Eqm.setPort_freeCells (q : Eqm) (p : Port) (x : PortQueues) : (q.setPort p x).freeCells = q.freeCells := by
  cases p <;> rfl
@[simp] theorem Eqm.setPort_overtaken (q : Eqm) (p : Port) (x : PortQueues) : (q.setPort p x).overtaken = q.overtaken := by
  cases p <;> rfl
@[simp] theorem Eqm.setPort_overflow (q : Eqm) (p : Port) (x : PortQueues) : (q.setPort p x).overflow = q.overflow := by
  cases p <;> rfl
@[simp] theorem Eqm.setPort_hold (q : Eqm) (p : Port) (x : PortQueues) : (q.setPort p x).hold = q.hold := by
  cases p <;> rfl
@[simp] theorem PortQueues.queue_setQueue_self (x : PortQueues) (c : Cls) (l : List Entry) :
    (x.setQueue c l).queue c = l := by cases c <;> rfl
theorem PortQueues.queue_setQueue (x : PortQueues) (c c' : Cls) (l : List Entry) :
    (x.setQueue c l).queue c' = if c' = c then l else x.queue c' := by cases c <;> cases c' <;> rfl
@[simp] theorem PortQueues.setQueue_tx (x : PortQueues) (c : Cls) (l : List Entry) : (x.setQueue c l).tx = x.tx := by
  cases c <;> rfl
@[simp] theorem Eqm.queue_setQueue_self (q : Eqm) (p : Port) (c : Cls) (l : List Entry) :
    (q.setQueue p c l).queue p c = l := by cases p <;> cases c <;> rfl
theorem Eqm.queue_setQueue (q : Eqm) (p p' : Port) (c c' : Cls) (l : List Entry) :
    (q.setQueue p c l).queue p' c' = if p' = p ∧ c' = c then l else q.queue p' c' := by
  cases p <;> cases p' <;> cases c <;> cases c' <;> rfl
@[simp] theorem Eqm.setQueue_freeCells (q : Eqm) (p : Port) (c : Cls) (l : List Entry) :
    (q.setQueue p c l).freeCells = q.freeCells := by cases p <;> rfl
@[simp] theorem Eqm.setQueue_hold (q : Eqm) (p : Port) (c : Cls) (l : List Entry) :
    (q.setQueue p c l).hold = q.hold := by cases p <;> rfl
@[simp] theorem Eqm.setQueue_tx (q : Eqm) (p p' : Port) (c : Cls) (l : List Entry) :
    ((q.setQueue p c l).port p').tx = (q.port p').tx := by cases p <;> cases p' <;> cases c <;> rfl

end Sys2Proof.Machine
end

