-- ==== Sys2Proof/Laws/Arbiter.lean ====
section
/-! SUPPORT. What the arbiters can do: a start changes one port and one link-control slot, and after the starts that are due nothing
eligible waits at an idle port. -/

namespace Sys2Proof.Machine

@[simp] theorem Eqm.send_hold (q : Eqm) (p : Port) (t : Tx) : (q.send p t).hold = q.hold := by simp [Eqm.send]
theorem Eqm.send_port (q : Eqm) (p p' : Port) (t : Tx) :
    (q.send p t).port p' = if p' = p then { q.port p with tx := some t } else q.port p' := by
  simp [Eqm.send, Eqm.port_setPort]

/-- A start changes the queues and one link-control slot alone (R163). -/
@[simp] theorem State.begin_frame (s : State) (p : Port) (x : Pick) :
    (s.begin p x).lines = s.lines
      ∧ (s.begin p x).power = s.power
      ∧ (s.begin p x).clock = s.clock
      ∧ (s.begin p x).rouse = s.rouse
      ∧ (s.begin p x).ru = s.ru
      ∧ (s.begin p x).ng = s.ng
      ∧ (s.begin p x).su = s.su
      ∧ (s.begin p x).cm = s.cm
      ∧ (s.begin p x).discards = s.discards
      ∧ (s.begin p x).cu = s.cu
      ∧ (s.begin p x).free = s.free
      ∧ (s.begin p x).pending = s.pending
      ∧ (s.begin p x).eqm.hold = s.eqm.hold
      ∧ ∀ e, (s.begin p x).presence e = s.presence e := by
  cases x <;> simp [State.begin, Eqm.send_hold, State.presence]

/-- The arbiter changes the queues and one link-control slot alone (R161). -/
@[simp] theorem State.arbitrate_frame (s : State) (p : Port) :
    (s.arbitrate p).lines = s.lines
      ∧ (s.arbitrate p).power = s.power
      ∧ (s.arbitrate p).clock = s.clock
      ∧ (s.arbitrate p).rouse = s.rouse
      ∧ (s.arbitrate p).ru = s.ru
      ∧ (s.arbitrate p).ng = s.ng
      ∧ (s.arbitrate p).su = s.su
      ∧ (s.arbitrate p).cm = s.cm
      ∧ (s.arbitrate p).discards = s.discards
      ∧ (s.arbitrate p).cu = s.cu
      ∧ (s.arbitrate p).free = s.free
      ∧ (s.arbitrate p).pending = s.pending
      ∧ (s.arbitrate p).eqm.hold = s.eqm.hold
      ∧ ∀ e, (s.arbitrate p).presence e = s.presence e := by
  unfold State.arbitrate
  repeat' split
  all_goals simp

/-- The starts that are due change the queues and the link-control slots alone (R161). -/
@[simp] theorem State.begun_frame (s : State) :
    (s.begun).lines = s.lines
      ∧ (s.begun).power = s.power
      ∧ (s.begun).clock = s.clock
      ∧ (s.begun).rouse = s.rouse
      ∧ (s.begun).ru = s.ru
      ∧ (s.begun).ng = s.ng
      ∧ (s.begun).su = s.su
      ∧ (s.begun).cm = s.cm
      ∧ (s.begun).discards = s.discards
      ∧ (s.begun).cu = s.cu
      ∧ (s.begun).free = s.free
      ∧ (s.begun).pending = s.pending
      ∧ (s.begun).eqm.hold = s.eqm.hold
      ∧ ∀ e, (s.begun).presence e = s.presence e := by
  simp [State.begun]

theorem State.begin_clm (s : State) (p : Port) (x : Pick) (e : End) :
    ∃ slot, (s.begin p x).clm e = { s.clm e with slot := slot } := by
  cases x with
  | rouse e' => cases e <;> cases e' <;> exact ⟨_, rfl⟩
  | greet e' => cases e <;> cases e' <;> exact ⟨_, rfl⟩
  | front c y => cases e <;> exact ⟨_, rfl⟩

theorem State.arbitrate_clm (s : State) (p : Port) (e : End) :
    ∃ slot, (s.arbitrate p).clm e = { s.clm e with slot := slot } := by
  unfold State.arbitrate
  split
  · exact ⟨_, rfl⟩
  · split
    · exact ⟨_, rfl⟩
    · exact s.begin_clm p _ e

/-- Of a link monitor the starts that are due change the slot alone. -/
theorem State.begun_clm (s : State) (e : End) : ∃ slot, s.begun.clm e = { s.clm e with slot := slot } := by
  obtain ⟨x, hx⟩ := s.arbitrate_clm .a e
  obtain ⟨y, hy⟩ := (s.arbitrate .a).arbitrate_clm .b e
  obtain ⟨z, hz⟩ := ((s.arbitrate .a).arbitrate .b).arbitrate_clm .c e
  exact ⟨z, by rw [State.begun, hz, hy, hx]⟩

/-! ## The choice of a port reads its own port, its own link, the standings, the hold set and the power state -/

theorem State.pick_congr {s t : State} {p : Port} (h1 : t.power = s.power) (h2 : t.ru = s.ru) (h3 : t.eqm.hold = s.eqm.hold)
    (h4 : t.eqm.port p = s.eqm.port p) (h5 : ∀ e, Port.end? p = some e → t.clm e = s.clm e) : t.pick p = s.pick p := by
  have hj : t.portJoined p = s.portJoined p := by
    cases p
    · exact congrArg (fun c => c.link.isJoined) (h5 .a rfl)
    · exact congrArg (fun c => c.link.isJoined) (h5 .b rfl)
    · rfl
  have hm : t.portMatched p = s.portMatched p := by cases p <;> simp [State.portMatched, h2]
  have hs : t.slotPick p = s.slotPick p := by
    unfold State.slotPick
    split
    · rfl
    · rename_i e he
      rw [h5 e he]
  have hv : ∀ c, t.mayServe p c = s.mayServe p c := fun c => by cases c <;> simp [State.mayServe, hj, hm, h3]
  have hq : ∀ c, t.eqm.queue p c = s.eqm.queue p c := fun c => by simp [Eqm.queue, h4]
  have hp : ∀ l, t.queuePick p l = s.queuePick p l := by
    intro l
    induction l with
    | nil => rfl
    | cons c l ih => simp only [State.queuePick, hv, hq, ih]
  simp only [State.pick, h1, hs, hp]

theorem State.slotPick_end {s : State} {p : Port} {x : Pick} (h : s.slotPick p = some x) :
    ∃ e, Port.end? p = some e ∧ (x = .rouse e ∨ x = .greet e) := by
  unfold State.slotPick at h
  split at h
  · cases h
  · rename_i e he
    refine ⟨e, he, ?_⟩
    grind

theorem State.queuePick_isFront {s : State} {p : Port} {l : List Cls} {x : Pick} (h : s.queuePick p l = some x) :
    ∃ c y, x = .front c y := by
  induction l with
  | nil => cases h
  | cons c l ih =>
    unfold State.queuePick at h
    split at h
    · cases h
      exact ⟨_, _, rfl⟩
    · exact ih h

/-- The item of the link-control slot that a port takes is one of its own end. -/
theorem State.pick_end {s : State} {p : Port} {x : Pick} {e : End} (h : s.pick p = some x) (hx : x = .rouse e ∨ x = .greet e) :
    Port.end? p = some e := by
  unfold State.pick at h
  split at h
  · cases h
  · split at h
    · rename_i y hy
      cases h
      obtain ⟨e', he, hy'⟩ := State.slotPick_end hy
      rcases hx with rfl | rfl <;> rcases hy' with h | h <;> cases h <;> exact he
    · obtain ⟨c, y, rfl⟩ := State.queuePick_isFront h
      rcases hx with h | h <;> cases h

theorem Port.end?_inj {p q : Port} {e : End} (h : Port.end? p = some e) (h' : Port.end? q = some e) : p = q := by
  cases p <;> cases q <;> cases e <;> simp_all [Port.end?]

/-- A start leaves the other ports and what they choose as they were: the arbiters are independent (R161). -/
theorem State.begin_other {s : State} {p q : Port} {x : Pick} (h : s.pick p = some x) (hq : q ≠ p) :
    (s.begin p x).eqm.port q = s.eqm.port q ∧ (s.begin p x).pick q = s.pick q := by
  have hport : (s.begin p x).eqm.port q = s.eqm.port q := by
    cases x <;> simp [State.begin, Eqm.send_port, hq, Eqm.setQueue, Eqm.port_setPort]
  refine ⟨hport, State.pick_congr (by simp) (by simp) (by simp) hport fun e he => ?_⟩
  cases x with
  | rouse e' =>
    have hne : e ≠ e' := fun h' => hq (Port.end?_inj he (h' ▸ State.pick_end h (.inl rfl)))
    have := State.clm_setClm_of_ne s (s.clm e').unplaceRouse hne
    simp only [State.begin]
    cases e <;> exact this
  | greet e' =>
    have hne : e ≠ e' := fun h' => hq (Port.end?_inj he (h' ▸ State.pick_end h (.inr rfl)))
    have := State.clm_setClm_of_ne s (s.clm e').unplaceGreet hne
    simp only [State.begin]
    cases e <;> exact this
  | front c y => cases e <;> rfl

/-- Nothing eligible waits at a port that the arbiter served. -/
theorem State.arbitrate_self (s : State) (p : Port) :
    ((s.arbitrate p).eqm.port p).tx = none → (s.arbitrate p).pick p = none := by
  unfold State.arbitrate
  split
  · rename_i h
    intro h'
    simp [h'] at h
  · split
    · exact fun _ => by assumption
    · rename_i x _
      intro h
      exfalso
      cases x <;> simp [State.begin, Eqm.send_port] at h

theorem State.arbitrate_other (s : State) {p q : Port} (hq : q ≠ p) :
    (s.arbitrate p).eqm.port q = s.eqm.port q ∧ (s.arbitrate p).pick q = s.pick q := by
  unfold State.arbitrate
  split
  · exact ⟨rfl, rfl⟩
  · split
    · exact ⟨rfl, rfl⟩
    · rename_i x hx
      exact State.begin_other hx hq

theorem State.arbitrate_of_served {s : State} {p : Port} (h : (s.eqm.port p).tx = none → s.pick p = none) : s.arbitrate p = s := by
  unfold State.arbitrate
  split
  · rfl
  · rename_i hn
    rw [h (by simpa using hn)]

/-- After the starts that are due nothing eligible waits at an idle port. -/
theorem State.served_begun (s : State) : s.begun.served := by
  unfold State.begun
  intro p
  cases p with
  | a =>
    rw [(State.arbitrate_other _ (by decide)).1, (State.arbitrate_other _ (by decide)).2,
      (State.arbitrate_other _ (by decide)).1, (State.arbitrate_other _ (by decide)).2]
    exact State.arbitrate_self _ _
  | b =>
    rw [(State.arbitrate_other _ (by decide)).1, (State.arbitrate_other _ (by decide)).2]
    exact State.arbitrate_self _ _
  | c => exact State.arbitrate_self _ _

/-- Where nothing waits there is no start to make. -/
theorem State.begun_of_served {s : State} (h : s.served) : s.begun = s := by
  unfold State.begun
  rw [State.arbitrate_of_served (h .a), State.arbitrate_of_served (h .b), State.arbitrate_of_served (h .c)]

@[simp] theorem State.begun_begun (s : State) : s.begun.begun = s.begun := State.begun_of_served s.served_begun

/-- A port that sends goes on sending what it sends: the starts that are due leave it as it is (R161: "A port sends one frame at a time,
from start to completion"). -/
theorem State.begun_port_of_sending {s : State} {p : Port} (h : (s.eqm.port p).tx.isSome = true) : s.begun.eqm.port p = s.eqm.port p := by
  have keep (u : State) (q : Port) (hu : (u.eqm.port p).tx.isSome = true) : (u.arbitrate q).eqm.port p = u.eqm.port p := by
    by_cases hq : p = q
    · subst hq
      simp [State.arbitrate, hu]
    · exact (u.arbitrate_other hq).1
  have ha := keep s .a h
  have hb := keep (s.arbitrate .a) .b (ha ▸ h)
  rw [State.begun, keep _ .c (hb ▸ ha ▸ h), hb, ha]

/-- A command in a state where nothing waits has its effect on that state. -/
theorem State.runs_of_served {s : State} (h : s.served) (f : State → State) : s.runs f = .next (f s) := by
  rw [State.runs, State.begun_of_served h]

end Sys2Proof.Machine
end

