-- ==== Sys2Proof/Laws/Footprint.lean ====
section
/-! SUPPORT. What the shared operations leave unchanged: one lemma for each, cited instead of unfolding it. -/

namespace Sys2Proof.Machine

/-- An offer changes the queues and the discard log alone (R155, R156). -/
@[simp] theorem State.offer_frame (s : State) (p : Port) (c : Cls) (e : Entry) :
    (s.offer p c e).lines = s.lines
      ∧ (s.offer p c e).power = s.power
      ∧ (s.offer p c e).clock = s.clock
      ∧ (s.offer p c e).clmA = s.clmA
      ∧ (s.offer p c e).clmB = s.clmB
      ∧ (s.offer p c e).rouse = s.rouse
      ∧ (s.offer p c e).ru = s.ru
      ∧ (s.offer p c e).ng = s.ng
      ∧ (s.offer p c e).su = s.su
      ∧ (s.offer p c e).cm = s.cm
      ∧ (s.offer p c e).cu = s.cu
      ∧ (s.offer p c e).free = s.free
      ∧ (s.offer p c e).pending = s.pending
      ∧ (∀ x, (s.offer p c e).clm x = s.clm x)
      ∧ (∀ x, (s.offer p c e).presence x = s.presence x) := by
  unfold State.offer
  split <;> simp [State.presence] <;> (intro x; cases x <;> rfl)

/-- Flooding one port changes the queues and the discard log alone (R78). -/
@[simp] theorem State.floodPort_frame (s : State) (i : Ingress) (f : Frame) (e : End) :
    (s.floodPort i f e).lines = s.lines
      ∧ (s.floodPort i f e).power = s.power
      ∧ (s.floodPort i f e).clock = s.clock
      ∧ (s.floodPort i f e).clmA = s.clmA
      ∧ (s.floodPort i f e).clmB = s.clmB
      ∧ (s.floodPort i f e).rouse = s.rouse
      ∧ (s.floodPort i f e).ru = s.ru
      ∧ (s.floodPort i f e).ng = s.ng
      ∧ (s.floodPort i f e).su = s.su
      ∧ (s.floodPort i f e).cm = s.cm
      ∧ (s.floodPort i f e).cu = s.cu
      ∧ (s.floodPort i f e).free = s.free
      ∧ (s.floodPort i f e).pending = s.pending
      ∧ (∀ x, (s.floodPort i f e).clm x = s.clm x)
      ∧ (∀ x, (s.floodPort i f e).presence x = s.presence x) := by
  unfold State.floodPort
  split
  · simp
  · split
    · simp
    · split <;> simp [State.presence]

/-- Flooding changes the queues and the discard log alone (R78). -/
@[simp] theorem State.flood_frame (s : State) (i : Ingress) (f : Frame) :
    (s.flood i f).lines = s.lines
      ∧ (s.flood i f).power = s.power
      ∧ (s.flood i f).clock = s.clock
      ∧ (s.flood i f).clmA = s.clmA
      ∧ (s.flood i f).clmB = s.clmB
      ∧ (s.flood i f).rouse = s.rouse
      ∧ (s.flood i f).ru = s.ru
      ∧ (s.flood i f).ng = s.ng
      ∧ (s.flood i f).su = s.su
      ∧ (s.flood i f).cm = s.cm
      ∧ (s.flood i f).cu = s.cu
      ∧ (s.flood i f).free = s.free
      ∧ (s.flood i f).pending = s.pending
      ∧ (∀ x, (s.flood i f).clm x = s.clm x)
      ∧ (∀ x, (s.flood i f).presence x = s.presence x) := by
  simp [State.flood]

/-- Routing a response changes the queues and the discard log alone (R80). -/
@[simp] theorem State.routeResponse_frame (s : State) (i : Ingress) (f : Frame) (w : Word) :
    (s.routeResponse i f w).lines = s.lines
      ∧ (s.routeResponse i f w).power = s.power
      ∧ (s.routeResponse i f w).clock = s.clock
      ∧ (s.routeResponse i f w).clmA = s.clmA
      ∧ (s.routeResponse i f w).clmB = s.clmB
      ∧ (s.routeResponse i f w).rouse = s.rouse
      ∧ (s.routeResponse i f w).ru = s.ru
      ∧ (s.routeResponse i f w).ng = s.ng
      ∧ (s.routeResponse i f w).su = s.su
      ∧ (s.routeResponse i f w).cm = s.cm
      ∧ (s.routeResponse i f w).cu = s.cu
      ∧ (s.routeResponse i f w).free = s.free
      ∧ (s.routeResponse i f w).pending = s.pending
      ∧ (∀ x, (s.routeResponse i f w).clm x = s.clm x)
      ∧ (∀ x, (s.routeResponse i f w).presence x = s.presence x) := by
  unfold State.routeResponse
  split
  · split <;> simp [State.presence]
  · simp

/-- A response changes the queues and the discard log alone (R174). -/
@[simp] theorem State.answer_frame (s : State) (t : ReplyTo) (o : ReplyCode) (d : List Byte) :
    (s.answer t o d).lines = s.lines
      ∧ (s.answer t o d).power = s.power
      ∧ (s.answer t o d).clock = s.clock
      ∧ (s.answer t o d).clmA = s.clmA
      ∧ (s.answer t o d).clmB = s.clmB
      ∧ (s.answer t o d).rouse = s.rouse
      ∧ (s.answer t o d).ru = s.ru
      ∧ (s.answer t o d).ng = s.ng
      ∧ (s.answer t o d).su = s.su
      ∧ (s.answer t o d).cm = s.cm
      ∧ (s.answer t o d).cu = s.cu
      ∧ (s.answer t o d).free = s.free
      ∧ (s.answer t o d).pending = s.pending
      ∧ (∀ x, (s.answer t o d).clm x = s.clm x)
      ∧ (∀ x, (s.answer t o d).presence x = s.presence x) := by
  unfold State.answer
  split <;> simp

/-- A response changes the queues and the discard log alone (R174). -/
@[simp] theorem State.respond_frame (s : State) (r : Request) (k : Byte) (o : ReplyCode) (d : List Byte) :
    (s.respond r k o d).lines = s.lines
      ∧ (s.respond r k o d).power = s.power
      ∧ (s.respond r k o d).clock = s.clock
      ∧ (s.respond r k o d).clmA = s.clmA
      ∧ (s.respond r k o d).clmB = s.clmB
      ∧ (s.respond r k o d).rouse = s.rouse
      ∧ (s.respond r k o d).ru = s.ru
      ∧ (s.respond r k o d).ng = s.ng
      ∧ (s.respond r k o d).su = s.su
      ∧ (s.respond r k o d).cm = s.cm
      ∧ (s.respond r k o d).cu = s.cu
      ∧ (s.respond r k o d).free = s.free
      ∧ (s.respond r k o d).pending = s.pending
      ∧ (∀ x, (s.respond r k o d).clm x = s.clm x)
      ∧ (∀ x, (s.respond r k o d).presence x = s.presence x) := by
  unfold State.respond
  split <;> simp

/-- A refusal changes the queues, the discard log and the refusal tally alone (R172, R176). -/
@[simp] theorem State.refuse_frame (s : State) (r : Request) (k : Byte) (o : ReplyCode) (d : List Byte) :
    (s.refuse r k o d).lines = s.lines
      ∧ (s.refuse r k o d).power = s.power
      ∧ (s.refuse r k o d).clock = s.clock
      ∧ (s.refuse r k o d).clmA = s.clmA
      ∧ (s.refuse r k o d).clmB = s.clmB
      ∧ (s.refuse r k o d).rouse = s.rouse
      ∧ (s.refuse r k o d).ru = s.ru
      ∧ (s.refuse r k o d).ng = s.ng
      ∧ (s.refuse r k o d).su = s.su
      ∧ (s.refuse r k o d).cm = s.cm
      ∧ (s.refuse r k o d).free = s.free
      ∧ (s.refuse r k o d).pending = s.pending
      ∧ (∀ x, (s.refuse r k o d).clm x = s.clm x)
      ∧ (∀ x, (s.refuse r k o d).presence x = s.presence x)
      ∧ (s.refuse r k o d).cu = { s.cu with refusals := saturate s.cu.refusals } := by
  simp [State.refuse, State.countRefusal, State.presence, State.clm]

/-- A link-loss purge changes the queues and the discard log alone (R165). -/
@[simp] theorem State.linkLossPurge_frame (s : State) (p : Port) :
    (s.linkLossPurge p).lines = s.lines
      ∧ (s.linkLossPurge p).power = s.power
      ∧ (s.linkLossPurge p).clock = s.clock
      ∧ (s.linkLossPurge p).clmA = s.clmA
      ∧ (s.linkLossPurge p).clmB = s.clmB
      ∧ (s.linkLossPurge p).rouse = s.rouse
      ∧ (s.linkLossPurge p).ru = s.ru
      ∧ (s.linkLossPurge p).ng = s.ng
      ∧ (s.linkLossPurge p).su = s.su
      ∧ (s.linkLossPurge p).cm = s.cm
      ∧ (s.linkLossPurge p).cu = s.cu
      ∧ (s.linkLossPurge p).free = s.free
      ∧ (s.linkLossPurge p).pending = s.pending
      ∧ (∀ x, (s.linkLossPurge p).clm x = s.clm x)
      ∧ (∀ x, (s.linkLossPurge p).presence x = s.presence x) := by
  simp [State.linkLossPurge, State.presence]
  intro x; cases x <;> rfl

/-- A standing-leave purge changes the queues and the discard log alone (R166). -/
@[simp] theorem State.standingLeavePurge_frame (s : State) (e : End) :
    (s.standingLeavePurge e).lines = s.lines
      ∧ (s.standingLeavePurge e).power = s.power
      ∧ (s.standingLeavePurge e).clock = s.clock
      ∧ (s.standingLeavePurge e).clmA = s.clmA
      ∧ (s.standingLeavePurge e).clmB = s.clmB
      ∧ (s.standingLeavePurge e).rouse = s.rouse
      ∧ (s.standingLeavePurge e).ru = s.ru
      ∧ (s.standingLeavePurge e).ng = s.ng
      ∧ (s.standingLeavePurge e).su = s.su
      ∧ (s.standingLeavePurge e).cm = s.cm
      ∧ (s.standingLeavePurge e).cu = s.cu
      ∧ (s.standingLeavePurge e).free = s.free
      ∧ (s.standingLeavePurge e).pending = s.pending
      ∧ (∀ x, (s.standingLeavePurge e).clm x = s.clm x)
      ∧ (∀ x, (s.standingLeavePurge e).presence x = s.presence x) := by
  simp [State.standingLeavePurge, State.presence]
  intro x; cases x <;> rfl

/-- A purge changes the queues and the discard log alone (R66). -/
@[simp] theorem State.purgeIfLeft_frame (s : State) (u : RosterUnit) (e : End) :
    (s.purgeIfLeft u e).lines = s.lines
      ∧ (s.purgeIfLeft u e).power = s.power
      ∧ (s.purgeIfLeft u e).clock = s.clock
      ∧ (s.purgeIfLeft u e).clmA = s.clmA
      ∧ (s.purgeIfLeft u e).clmB = s.clmB
      ∧ (s.purgeIfLeft u e).rouse = s.rouse
      ∧ (s.purgeIfLeft u e).ru = s.ru
      ∧ (s.purgeIfLeft u e).ng = s.ng
      ∧ (s.purgeIfLeft u e).su = s.su
      ∧ (s.purgeIfLeft u e).cm = s.cm
      ∧ (s.purgeIfLeft u e).cu = s.cu
      ∧ (s.purgeIfLeft u e).free = s.free
      ∧ (s.purgeIfLeft u e).pending = s.pending
      ∧ (∀ x, (s.purgeIfLeft u e).clm x = s.clm x)
      ∧ (∀ x, (s.purgeIfLeft u e).presence x = s.presence x) := by
  unfold State.purgeIfLeft
  split <;> simp

/-- Offering a NOTICE changes the queues and the discard log alone (R129). -/
@[simp] theorem State.offerNotice_frame (s : State) (f : Frame) (e : End) :
    (s.offerNotice f e).lines = s.lines
      ∧ (s.offerNotice f e).power = s.power
      ∧ (s.offerNotice f e).clock = s.clock
      ∧ (s.offerNotice f e).clmA = s.clmA
      ∧ (s.offerNotice f e).clmB = s.clmB
      ∧ (s.offerNotice f e).rouse = s.rouse
      ∧ (s.offerNotice f e).ru = s.ru
      ∧ (s.offerNotice f e).ng = s.ng
      ∧ (s.offerNotice f e).su = s.su
      ∧ (s.offerNotice f e).cm = s.cm
      ∧ (s.offerNotice f e).cu = s.cu
      ∧ (s.offerNotice f e).free = s.free
      ∧ (s.offerNotice f e).pending = s.pending
      ∧ (∀ x, (s.offerNotice f e).clm x = s.clm x)
      ∧ (∀ x, (s.offerNotice f e).presence x = s.presence x) := by
  unfold State.offerNotice
  split <;> simp

/-- The computation of R65 changes the judgements and the settled flag alone. -/
@[simp] theorem State.recompute_frame (s : State) (b : Bool) :
    (s.recompute b).lines = s.lines
      ∧ (s.recompute b).power = s.power
      ∧ (s.recompute b).clock = s.clock
      ∧ (s.recompute b).clmA = s.clmA
      ∧ (s.recompute b).clmB = s.clmB
      ∧ (s.recompute b).rouse = s.rouse
      ∧ (s.recompute b).su = s.su
      ∧ (s.recompute b).cm = s.cm
      ∧ (s.recompute b).eqm = s.eqm
      ∧ (s.recompute b).discards = s.discards
      ∧ (s.recompute b).cu = s.cu
      ∧ (s.recompute b).free = s.free
      ∧ (s.recompute b).pending = s.pending
      ∧ (∀ x, (s.recompute b).clm x = s.clm x)
      ∧ (∀ x, (s.recompute b).presence x = s.presence x)
      ∧ (s.recompute b).ru.active = s.ru.active
      ∧ (s.recompute b).ru.prior = s.ru.prior
      ∧ (s.recompute b).ru.grace = s.ru.grace
      ∧ (s.recompute b).ng.timer = s.ng.timer := by
  simp [State.recompute, State.presence]
  intro x; cases x <;> rfl

/-- The notice timer alone is set (R130). -/
@[simp] theorem State.noticeTimerAfter_frame (s : State) :
    (s.noticeTimerAfter).lines = s.lines
      ∧ (s.noticeTimerAfter).power = s.power
      ∧ (s.noticeTimerAfter).clock = s.clock
      ∧ (s.noticeTimerAfter).clmA = s.clmA
      ∧ (s.noticeTimerAfter).clmB = s.clmB
      ∧ (s.noticeTimerAfter).rouse = s.rouse
      ∧ (s.noticeTimerAfter).ru = s.ru
      ∧ (s.noticeTimerAfter).su = s.su
      ∧ (s.noticeTimerAfter).cm = s.cm
      ∧ (s.noticeTimerAfter).eqm = s.eqm
      ∧ (s.noticeTimerAfter).discards = s.discards
      ∧ (s.noticeTimerAfter).cu = s.cu
      ∧ (s.noticeTimerAfter).free = s.free
      ∧ (s.noticeTimerAfter).pending = s.pending
      ∧ (∀ x, (s.noticeTimerAfter).clm x = s.clm x)
      ∧ (∀ x, (s.noticeTimerAfter).presence x = s.presence x)
      ∧ s.noticeTimerAfter.ng.settled = s.ng.settled := by
  simp [State.noticeTimerAfter, State.presence]
  intro x; cases x <;> rfl

/-- After an emission the notice timer alone is set (R130). -/
@[simp] theorem State.noticeTimerAfterEmission_frame (s : State) :
    (s.noticeTimerAfterEmission).lines = s.lines
      ∧ (s.noticeTimerAfterEmission).power = s.power
      ∧ (s.noticeTimerAfterEmission).clock = s.clock
      ∧ (s.noticeTimerAfterEmission).clmA = s.clmA
      ∧ (s.noticeTimerAfterEmission).clmB = s.clmB
      ∧ (s.noticeTimerAfterEmission).rouse = s.rouse
      ∧ (s.noticeTimerAfterEmission).ru = s.ru
      ∧ (s.noticeTimerAfterEmission).su = s.su
      ∧ (s.noticeTimerAfterEmission).cm = s.cm
      ∧ (s.noticeTimerAfterEmission).eqm = s.eqm
      ∧ (s.noticeTimerAfterEmission).discards = s.discards
      ∧ (s.noticeTimerAfterEmission).cu = s.cu
      ∧ (s.noticeTimerAfterEmission).free = s.free
      ∧ (s.noticeTimerAfterEmission).pending = s.pending
      ∧ (∀ x, (s.noticeTimerAfterEmission).clm x = s.clm x)
      ∧ (∀ x, (s.noticeTimerAfterEmission).presence x = s.presence x)
      ∧ s.noticeTimerAfterEmission.ng.settled = s.ng.settled := by
  simp [State.noticeTimerAfterEmission, State.presence]
  intro x; cases x <;> rfl

/-- An emission changes the queues, the discard log and the notice timer alone (R128 to R130). -/
@[simp] theorem State.emit_frame (s : State) :
    (s.emit).lines = s.lines
      ∧ (s.emit).power = s.power
      ∧ (s.emit).clock = s.clock
      ∧ (s.emit).clmA = s.clmA
      ∧ (s.emit).clmB = s.clmB
      ∧ (s.emit).rouse = s.rouse
      ∧ (s.emit).ru = s.ru
      ∧ (s.emit).su = s.su
      ∧ (s.emit).cm = s.cm
      ∧ (s.emit).cu = s.cu
      ∧ (s.emit).free = s.free
      ∧ (s.emit).pending = s.pending
      ∧ (∀ x, (s.emit).clm x = s.clm x)
      ∧ (∀ x, (s.emit).presence x = s.presence x)
      ∧ s.emit.ng.settled = s.ng.settled := by
  simp [State.emit]

/-- The hand-over to the notice generator changes the queues, the discard log and the notice timer alone (R127). -/
@[simp] theorem State.handOverNotice_frame (s : State) (l : Bool) (u : RosterUnit) :
    (s.handOverNotice l u).lines = s.lines
      ∧ (s.handOverNotice l u).power = s.power
      ∧ (s.handOverNotice l u).clock = s.clock
      ∧ (s.handOverNotice l u).clmA = s.clmA
      ∧ (s.handOverNotice l u).clmB = s.clmB
      ∧ (s.handOverNotice l u).rouse = s.rouse
      ∧ (s.handOverNotice l u).ru = s.ru
      ∧ (s.handOverNotice l u).su = s.su
      ∧ (s.handOverNotice l u).cm = s.cm
      ∧ (s.handOverNotice l u).cu = s.cu
      ∧ (s.handOverNotice l u).free = s.free
      ∧ (s.handOverNotice l u).pending = s.pending
      ∧ (∀ x, (s.handOverNotice l u).clm x = s.clm x)
      ∧ (∀ x, (s.handOverNotice l u).presence x = s.presence x)
      ∧ (s.handOverNotice l u).ng.settled = s.ng.settled := by
  unfold State.handOverNotice
  split <;> simp

/-- A link change changes the judgements, the queues, the discard log and the notice generator alone (R42). -/
@[simp] theorem State.linkChange_frame (s : State) :
    (s.linkChange).lines = s.lines
      ∧ (s.linkChange).power = s.power
      ∧ (s.linkChange).clock = s.clock
      ∧ (s.linkChange).clmA = s.clmA
      ∧ (s.linkChange).clmB = s.clmB
      ∧ (s.linkChange).rouse = s.rouse
      ∧ (s.linkChange).su = s.su
      ∧ (s.linkChange).cm = s.cm
      ∧ (s.linkChange).cu = s.cu
      ∧ (s.linkChange).free = s.free
      ∧ (s.linkChange).pending = s.pending
      ∧ (∀ x, (s.linkChange).clm x = s.clm x)
      ∧ (∀ x, (s.linkChange).presence x = s.presence x)
      ∧ s.linkChange.ru.active = s.ru.active
      ∧ s.linkChange.ru.prior = s.ru.prior
      ∧ s.linkChange.ru.grace = s.ru.grace
      ∧ s.linkChange.ng.settled = (s.recompute false).ng.settled
      ∧ s.linkChange.ru = (s.recompute false).ru := by
  simp [State.linkChange]

end Sys2Proof.Machine
end

