-- ==== Sys2Proof/Laws/Cells.lean ====
section
/-! SUPPORT. The cell pool (R152): what each queue operation does to the free cells and the cells held. -/

namespace Sys2Proof.Machine

/-- Free cells and held cells together: R152 says this is always 768. -/
def Eqm.total (q : Eqm) : Nat := q.freeCells + q.heldCells

@[simp] theorem cellsOf_nil : cellsOf [] = 0 := rfl
@[simp] theorem cellsOf_cons (e : Entry) (l : List Entry) : cellsOf (e :: l) = e.cells + cellsOf l := by simp [cellsOf]
@[simp] theorem cellsOf_append (l m : List Entry) : cellsOf (l ++ m) = cellsOf l + cellsOf m := by simp [cellsOf]

/-- The cells held do not read the count of free cells. -/
@[simp] theorem Eqm.heldCells_freeCells (q : Eqm) (n : Nat) : { q with freeCells := n }.heldCells = q.heldCells := rfl

/-- The cells of what a port sends, 0 where it sends nothing. -/
def txCells : Option Tx → Nat
  | some t => t.item.cells
  | none => 0

theorem PortQueues.cells_eq (x : PortQueues) : x.cells = cellsOf x.entries + txCells x.tx := by
  unfold PortQueues.cells txCells; rfl

/-- A queue put in place of another changes the held cells by their difference. -/
theorem PortQueues.cells_setQueue (x : PortQueues) (c : Cls) (l : List Entry) :
    (x.setQueue c l).cells + cellsOf (x.queue c) = x.cells + cellsOf l := by
  cases c <;> simp [PortQueues.cells, PortQueues.setQueue, PortQueues.queue, PortQueues.entries] <;> omega

/-- A port put in place of another changes the held cells by their difference. -/
theorem Eqm.heldCells_setPort (q : Eqm) (p : Port) (x : PortQueues) :
    (q.setPort p x).heldCells + (q.port p).cells = q.heldCells + x.cells := by
  cases p <;> simp [Eqm.heldCells, Eqm.setPort, Eqm.port] <;> omega

/-- A queue put in place of another changes the held cells of the part by their difference. -/
theorem Eqm.heldCells_setQueue (q : Eqm) (p : Port) (c : Cls) (l : List Entry) :
    (q.setQueue p c l).heldCells + cellsOf (q.queue p c) = q.heldCells + cellsOf l := by
  have h1 := q.heldCells_setPort p ((q.port p).setQueue c l)
  have h2 := (q.port p).cells_setQueue c l
  unfold Eqm.setQueue Eqm.queue
  omega

@[simp] theorem Eqm.enterOvertaken_freeCells (q : Eqm) (k : CyclicKey) (p : Port) :
    (q.enterOvertaken k p).freeCells = q.freeCells := by
  unfold Eqm.enterOvertaken; split
  · rfl
  · split <;> rfl
@[simp] theorem Eqm.enterOvertaken_port (q : Eqm) (k : CyclicKey) (p p' : Port) :
    (q.enterOvertaken k p).port p' = q.port p' := by
  unfold Eqm.enterOvertaken; split
  · cases p' <;> rfl
  · split <;> cases p' <;> rfl
@[simp] theorem Eqm.enterOvertaken_queue (q : Eqm) (k : CyclicKey) (p p' : Port) (c : Cls) :
    (q.enterOvertaken k p).queue p' c = q.queue p' c := by simp [Eqm.queue]
@[simp] theorem Eqm.enterOvertaken_heldCells (q : Eqm) (k : CyclicKey) (p : Port) :
    (q.enterOvertaken k p).heldCells = q.heldCells := by
  unfold Eqm.enterOvertaken; split
  · rfl
  · split <;> rfl

/-- The copy that holds a key stands in the queue of its class. -/
theorem PortQueues.holder_find (x : PortQueues) (k : CyclicKey) (oc : Cls) (old : Entry)
    (h : x.holder k = some (oc, old)) : (x.queue oc).find? (Entry.hasKey k) = some old := by
  unfold PortQueues.holder at h
  split at h
  · cases h; assumption
  · split at h
    · cases h; assumption
    · split at h
      · cases h; assumption
      · split at h
        · cases h; assumption
        · cases h

/-- No copy of a port holds a key that has no holder. -/
theorem PortQueues.holder_none (x : PortQueues) (k : CyclicKey) (h : x.holder k = none) (c : Cls) :
    (x.queue c).find? (Entry.hasKey k) = none := by
  unfold PortQueues.holder at h
  split at h
  · cases h
  · split at h
    · cases h
    · split at h
      · cases h
      · split at h
        · cases h
        · cases c <;> assumption

theorem Eqm.holderFor_some (q : Eqm) (p : Port) (e : Entry) (k : CyclicKey) (oc : Cls) (old : Entry)
    (h : q.holderFor p e = some (k, oc, old)) :
    e.key = some k ∧ (q.queue p oc).find? (Entry.hasKey k) = some old := by
  unfold Eqm.holderFor at h
  split at h
  · cases h
  · split at h
    · cases h
    · cases h
      exact ⟨by assumption, PortQueues.holder_find _ _ _ _ (by assumption)⟩

/-- Replacement in place exchanges the holder's cells for the newer copy's. -/
theorem cellsOf_replaceHolder (k : CyclicKey) (new old : Entry) (l : List Entry)
    (h : l.find? (Entry.hasKey k) = some old) : cellsOf (replaceHolder k new l) + old.cells = cellsOf l + new.cells := by
  induction l with
  | nil => cases h
  | cons e es ih =>
    simp only [replaceHolder]
    cases hk : e.hasKey k with
    | true =>
      simp [List.find?, hk] at h
      subst h
      simp; omega
    | false =>
      simp [List.find?, hk] at h
      simp; have := ih h; omega

/-- Removal of the holder takes its cells away. -/
theorem cellsOf_removeHolder (k : CyclicKey) (old : Entry) (l : List Entry)
    (h : l.find? (Entry.hasKey k) = some old) : cellsOf (removeHolder k l) + old.cells = cellsOf l := by
  induction l with
  | nil => cases h
  | cons e es ih =>
    simp only [removeHolder]
    cases hk : e.hasKey k with
    | true =>
      simp [List.find?, hk] at h
      subst h
      simp; omega
    | false =>
      simp [List.find?, hk] at h
      simp; have := ih h; omega

/-- A replacement keeps the cells: what the old copy held and the pool gave, the newer copy holds (R158, R159). -/
theorem Eqm.replace_total (q : Eqm) (p : Port) (k : CyclicKey) (oc : Cls) (old : Entry) (c : Cls) (new : Entry)
    (h : (q.queue p oc).find? (Entry.hasKey k) = some old) : (q.replace p k oc old c new).1.total = q.total := by
  unfold Eqm.replace
  split
  · rename_i hc
    subst hc
    split
    · rename_i hd
      have h1 := q.heldCells_setQueue p oc (replaceHolder k new (q.queue p oc))
      have h2 := cellsOf_replaceHolder k new old _ h
      have h3 := Eqm.setQueue_freeCells q p oc (replaceHolder k new (q.queue p oc))
      simp only [Eqm.total, Eqm.enterOvertaken_freeCells, Eqm.enterOvertaken_heldCells, Eqm.heldCells_freeCells]
      omega
    · rfl
  · split
    · rfl
    · split
      · rfl
      · rename_i hne _ _
        have h1 := q.heldCells_setQueue p oc (removeHolder k (q.queue p oc))
        have h2 := cellsOf_removeHolder k old _ h
        have h3 := (q.setQueue p oc (removeHolder k (q.queue p oc))).heldCells_setQueue p c
          ((q.setQueue p oc (removeHolder k (q.queue p oc))).queue p c ++ [new])
        simp only [cellsOf_append, cellsOf_cons, cellsOf_nil] at h3
        simp only [Eqm.total, Eqm.enterOvertaken_freeCells, Eqm.enterOvertaken_heldCells, Eqm.heldCells_freeCells,
          Eqm.setQueue_freeCells]
        omega

/-- Admission keeps the cells: an admitted copy's cells come out of the pool (R155, R152). -/
theorem Eqm.admitCopy_total (q : Eqm) (j m : Bool) (p : Port) (c : Cls) (e : Entry) : (q.admitCopy j m p c e).1.total = q.total := by
  unfold Eqm.admitCopy
  split
  · rfl
  · split
    · rfl
    · unfold Eqm.admitUp
      split
      · rename_i k oc old h
        exact Eqm.replace_total _ _ _ _ _ _ _ (Eqm.holderFor_some _ _ _ _ _ _ h).2
      · split
        · rfl
        · split
          · rfl
          · split
            · rfl
            · have h1 := q.heldCells_setQueue p c (q.queue p c ++ [e])
              simp [Eqm.total, Eqm.heldCells] at *
              omega

@[simp] theorem State.offer_total (s : State) (p : Port) (c : Cls) (e : Entry) :
    (s.offer p c e).eqm.total = s.eqm.total := by
  have h := s.eqm.admitCopy_total (s.portJoined p) (s.portMatched p) p c e
  unfold State.offer
  split <;> (rename_i heq; rw [heq] at h; simpa using h)

@[simp] theorem State.floodPort_total (s : State) (i : Ingress) (f : Frame) (e : End) :
    (s.floodPort i f e).eqm.total = s.eqm.total := by
  unfold State.floodPort
  split
  · rfl
  · split
    · rfl
    · split <;> simp

@[simp] theorem State.flood_total (s : State) (i : Ingress) (f : Frame) : (s.flood i f).eqm.total = s.eqm.total := by
  simp [State.flood]

@[simp] theorem State.routeResponse_total (s : State) (i : Ingress) (f : Frame) (w : Word) :
    (s.routeResponse i f w).eqm.total = s.eqm.total := by
  unfold State.routeResponse
  split
  · split <;> simp
  · simp

@[simp] theorem State.answer_total (s : State) (t : ReplyTo) (o : ReplyCode) (d : List Byte) :
    (s.answer t o d).eqm.total = s.eqm.total := by
  unfold State.answer
  split <;> simp

@[simp] theorem State.respond_total (s : State) (r : Request) (k : Byte) (o : ReplyCode) (d : List Byte) :
    (s.respond r k o d).eqm.total = s.eqm.total := by
  unfold State.respond
  split <;> simp

@[simp] theorem State.refuse_total (s : State) (r : Request) (k : Byte) (o : ReplyCode) (d : List Byte) :
    (s.refuse r k o d).eqm.total = s.eqm.total := by
  simp [State.refuse, State.countRefusal]

/-! ## Purges -/

theorem Eqm.purgeQueue_total (q : Eqm) (p : Port) (c : Cls) (r : Reason) : (q.purgeQueue p c r).1.total = q.total := by
  have h := q.heldCells_setQueue p c []
  simp [Eqm.purgeQueue, Eqm.total, Eqm.heldCells] at *
  omega

theorem Eqm.purgeQueues_total (q : Eqm) (p : Port) (r : Reason) (cs : List Cls) :
    (q.purgeQueues p r cs).1.total = q.total := by
  induction cs generalizing q with
  | nil => rfl
  | cons c cs ih => simp [Eqm.purgeQueues, ih, Eqm.purgeQueue_total]

theorem Eqm.setTx_held (q : Eqm) (p : Port) (t : Option Tx) :
    (q.setPort p { q.port p with tx := t }).heldCells + txCells (q.port p).tx = q.heldCells + txCells t := by
  have h := q.heldCells_setPort p { q.port p with tx := t }
  have h1 := PortQueues.cells_eq (q.port p)
  have h2 := PortQueues.cells_eq { q.port p with tx := t }
  have h3 : PortQueues.entries { q.port p with tx := t } = (q.port p).entries := rfl
  simp only [h3] at h2
  dsimp only at h h2 ⊢
  omega

theorem Eqm.abortLost_total (q : Eqm) (p : Port) : (q.abortLost p).1.total = q.total := by
  unfold Eqm.abortLost
  split
  · rename_i c e b h
    have h2 := q.setTx_held p none
    simp only [h, txCells, TxItem.cells] at h2
    simp only [Eqm.total, Eqm.heldCells_freeCells]
    omega
  · rfl

@[simp] theorem State.linkLossPurge_total (s : State) (p : Port) : (s.linkLossPurge p).eqm.total = s.eqm.total := by
  simp [State.linkLossPurge, Eqm.purgeQueues_total, Eqm.abortLost_total]

@[simp] theorem State.standingLeavePurge_total (s : State) (e : End) : (s.standingLeavePurge e).eqm.total = s.eqm.total := by
  simp [State.standingLeavePurge, Eqm.purgeQueues_total]

@[simp] theorem State.purgeIfLeft_total (s : State) (u : RosterUnit) (e : End) :
    (s.purgeIfLeft u e).eqm.total = s.eqm.total := by
  unfold State.purgeIfLeft
  split <;> simp

@[simp] theorem Eqm.abandonLinkControl_total (q : Eqm) (p : Port) : (q.abandonLinkControl p).total = q.total := by
  have h2 := q.setTx_held p none
  unfold Eqm.abandonLinkControl
  split
  · rename_i b h
    simp only [h, txCells, TxItem.cells] at h2
    simp only [Eqm.total, Eqm.setPort_freeCells]; omega
  · rename_i b h
    simp only [h, txCells, TxItem.cells] at h2
    simp only [Eqm.total, Eqm.setPort_freeCells]; omega
  · rfl

/-! ## Notices and link changes -/

@[simp] theorem State.offerNotice_total (s : State) (f : Frame) (e : End) :
    (s.offerNotice f e).eqm.total = s.eqm.total := by
  unfold State.offerNotice
  split <;> simp

@[simp] theorem State.emit_total (s : State) : s.emit.eqm.total = s.eqm.total := by simp [State.emit]

@[simp] theorem State.handOverNotice_total (s : State) (l : Bool) (u : RosterUnit) :
    (s.handOverNotice l u).eqm.total = s.eqm.total := by
  unfold State.handOverNotice
  split <;> simp

@[simp] theorem State.linkChange_total (s : State) : s.linkChange.eqm.total = s.eqm.total := by simp [State.linkChange]

/-! ## Changeover -/

theorem translate_length (prior : List Record) (a : ActiveRoster) (f g : Frame) (h : translate prior a f = some g) :
    g.length = f.length := by
  unfold translate at h
  split at h
  · cases h; rfl
  · cases h

/-- A frame that re-evaluation keeps or moves has the length of the queued one. -/
theorem State.verdict_length (s : State) (p : Port) (c : DataClass) (e : Entry) :
    (∀ f, s.verdict p c e = .keep f → f.length = e.frame.length)
      ∧ (∀ q f, s.verdict p c e = .move q f → f.length = e.frame.length ∧ q ≠ p) := by
  unfold State.verdict
  split
  · simp
  · split
    · simp
    · split
      · simp
      · rename_i f hf
        have := translate_length _ _ _ _ hf
        unfold State.rerouted
        constructor <;> intros <;> grind

@[simp] theorem Eqm.noteOvertaken_total (q : Eqm) (r : Reason) (p : Port) (e : Entry) :
    (q.noteOvertaken r p e).total = q.total := by
  unfold Eqm.noteOvertaken
  split <;> simp [Eqm.total]

/-- One frame evaluated keeps the cells: what it held is free, moved, or with the frames kept. -/
theorem State.evaluate_total (s : State) (p : Port) (c : DataClass) (w : Walk) (e : Entry) :
    (s.evaluate p c w e).eqm.total + cellsOf (s.evaluate p c w e).kept = w.eqm.total + cellsOf w.kept + e.cells := by
  have hv := s.verdict_length p c e
  unfold State.evaluate
  split
  · rename_i f hf
    have := hv.1 f hf
    simp only [cellsOf_cons, Entry.cells] at *
    rw [this]; omega
  · simp only [Eqm.total, Eqm.heldCells_freeCells]; omega
  · rename_i q f hf
    have hl := (hv.2 q f hf).1
    dsimp only
    split
    · simp only [Eqm.noteOvertaken_total]
      simp only [Eqm.total, Eqm.heldCells_freeCells]; omega
    · have h1 := w.eqm.heldCells_setQueue q c.toCls (w.eqm.queue q c.toCls ++ [{ e with frame := f }])
      simp only [cellsOf_append, cellsOf_cons, cellsOf_nil] at h1
      have h2 : Entry.cells { e with frame := f } = e.cells := by simp [Entry.cells, hl]
      simp only [Eqm.total, Eqm.setQueue_freeCells]
      omega

theorem State.evaluate_fold_total (s : State) (p : Port) (c : DataClass) (l : List Entry) (w : Walk) :
    (l.foldl (s.evaluate p c) w).eqm.total + cellsOf (l.foldl (s.evaluate p c) w).kept
      = w.eqm.total + cellsOf w.kept + cellsOf l := by
  induction l generalizing w with
  | nil => simp
  | cons e l ih => simp only [List.foldl_cons, ih, State.evaluate_total, cellsOf_cons]; omega

@[simp] theorem cellsOf_reverse (l : List Entry) : cellsOf l.reverse = cellsOf l := by
  simp [cellsOf, List.sum_reverse]

theorem State.evaluateQueue_total (s : State) (p : Port) (c : DataClass) (n : Nat) (q : Eqm) (lost : List Discard) :
    (s.evaluateQueue p c n q lost).1.total = q.total := by
  unfold State.evaluateQueue
  dsimp only
  generalize hw : List.foldl (s.evaluate p c) _ _ = w
  have h1 := s.evaluate_fold_total p c ((q.queue p c.toCls).take n)
    { eqm := q.setQueue p c.toCls ((q.queue p c.toCls).drop n), kept := [], lost := lost }
  rw [hw] at h1
  have h2 := q.heldCells_setQueue p c.toCls ((q.queue p c.toCls).drop n)
  have h3 := w.eqm.heldCells_setQueue p c.toCls (w.kept.reverse ++ w.eqm.queue p c.toCls)
  have h4 : cellsOf (q.queue p c.toCls) = cellsOf ((q.queue p c.toCls).take n) + cellsOf ((q.queue p c.toCls).drop n) := by
    rw [← cellsOf_append, List.take_append_drop]
  simp only [Eqm.total, Eqm.setQueue_freeCells, cellsOf_append, cellsOf_reverse, cellsOf_nil] at *
  omega

theorem State.evaluateQueues_total (s : State) (start : Eqm) (l : List (Port × DataClass)) (q : Eqm) (lost : List Discard) :
    (s.evaluateQueues start l q lost).1.total = q.total := by
  induction l generalizing q lost with
  | nil => rfl
  | cons x l ih =>
    obtain ⟨p, c⟩ := x
    simp only [State.evaluateQueues, ih, State.evaluateQueue_total]

@[simp] theorem State.reevaluate_total (s : State) : s.reevaluate.eqm.total = s.eqm.total := by
  simp [State.reevaluate, State.evaluateQueues_total]

/-! ## Links and power -/

@[simp] theorem State.settleIfReady_total (s : State) (e : End) : (s.settleIfReady e).eqm.total = s.eqm.total := by
  unfold State.settleIfReady
  split <;> simp

@[simp] theorem State.enterDark_total (s : State) (e : End) : (s.enterDark e).eqm.total = s.eqm.total := by
  simp [State.enterDark]

@[simp] theorem State.lose_total (s : State) (e : End) (l : LossCause) (c : Option Candidate) :
    (s.lose e l c).eqm.total = s.eqm.total := by
  unfold State.lose State.loseToDark State.loseToGreeting
  split <;> simp

@[simp] theorem State.wake_total (s : State) : s.wake.eqm.total = s.eqm.total := by
  simp [State.wake, State.noticeTimerAfter, State.recompute]

@[simp] theorem State.enterDormant_total (s : State) : s.enterDormant.eqm.total = 768 := rfl

@[simp] theorem State.restarted_total (s : State) : s.restarted.eqm.total = 768 := by
  simp only [State.restarted, State.settleIfReady_total]; rfl

/-! ## Transmission -/

theorem State.queuePick_front (s : State) (p : Port) (l : List Cls) (c : Cls) (x : Entry)
    (h : s.queuePick p l = some (.front c x)) : (s.eqm.queue p c).head? = some x := by
  induction l with
  | nil => cases h
  | cons d l ih =>
    unfold State.queuePick at h
    split at h
    · rename_i y ys _ hq
      cases h; simp [hq]
    · exact ih h

theorem State.pick_front (s : State) (p : Port) (c : Cls) (x : Entry) (h : s.pick p = some (.front c x)) :
    (s.eqm.queue p c).head? = some x := by
  unfold State.pick at h
  split at h
  · cases h
  · split at h
    · rename_i y hy
      cases h
      unfold State.slotPick at hy
      grind
    · exact s.queuePick_front _ _ _ _ h

theorem Eqm.send_total (q : Eqm) (p : Port) (t : Tx) (h : (q.port p).tx = none) :
    (q.send p t).total = q.total + t.item.cells := by
  have h2 := q.setTx_held p (some t)
  simp only [h, txCells] at h2
  simp only [Eqm.send, Eqm.total, Eqm.setPort_freeCells]
  omega

@[simp] theorem State.arbitrate_total (s : State) (p : Port) : (s.arbitrate p).eqm.total = s.eqm.total := by
  unfold State.arbitrate
  split
  · rfl
  · rename_i hn
    have hn : (s.eqm.port p).tx = none := by simpa using hn
    split
    · rfl
    · rename_i x hx
      unfold State.begin
      split
      · rw [Eqm.send_total] <;> simp [hn, TxItem.cells]
      · rw [Eqm.send_total] <;> simp [hn, TxItem.cells]
      · rename_i c y
        have hf := s.pick_front p c y hx
        have h1 := s.eqm.heldCells_setQueue p c (s.eqm.queue p c).tail
        have h2 : cellsOf (s.eqm.queue p c) = y.cells + cellsOf (s.eqm.queue p c).tail := by
          cases hq : s.eqm.queue p c with
          | nil => simp [hq] at hf
          | cons z zs => simp [hq] at hf; simp [hf]
        rw [Eqm.send_total]
        · simp only [Eqm.total, Eqm.setQueue_freeCells, TxItem.cells]; omega
        · simp [hn]

@[simp] theorem State.begun_total (s : State) : s.begun.eqm.total = s.eqm.total := by simp [State.begun]

@[simp] theorem State.enactment_total (s : State) (b : StagingBody) (r : ConfirmedRecord) :
    (s.enactment b r).eqm.total = s.eqm.total := by
  simp [State.enactment, State.swapRosters]

theorem State.completed_total (s : State) (p : Port) (h : s.eqm.total = 768) : (s.completed p).eqm.total = 768 := by
  unfold State.completed
  split
  · exact h
  · rename_i t ht
    have h2 := s.eqm.setTx_held p none
    simp only [ht, txCells] at h2
    have h3 : ({ s.eqm.setPort p { s.eqm.port p with tx := none } with
        freeCells := (s.eqm.setPort p { s.eqm.port p with tx := none }).freeCells + t.item.cells }).total = 768 := by
      simp only [Eqm.total, Eqm.heldCells_freeCells, Eqm.setPort_freeCells] at *; omega
    dsimp only
    split
    · split
      · simp
      · exact h3
    · exact h3
    · exact h3

end Sys2Proof.Machine
end

