-- ==== Sys2Proof/Laws/Step.lean ====
section
/-! SUPPORT. What a step can do: a command of the queue, a moment of the part's own that is due, or one microsecond. -/

namespace Sys2Proof.Machine

@[simp] theorem isDue_none : isDue none = false := rfl
@[simp] theorem isDue_zero : isDue (some 0) = true := rfl
theorem isDue_iff (t : Timer) : isDue t = true ↔ t = some 0 := by simp [isDue]

@[simp] theorem mem_momentIf (b : Bool) (c d : Instr) : d ∈ momentIf b c ↔ b = true ∧ d = c := by
  cases b <;> simp [momentIf]

theorem State.mem_linkMoments (s : State) (e : End) (c : Instr) :
    c ∈ s.linkMoments e ↔
      ((s.clm e).settle = some 0 ∧ c = .settleExpiry e) ∨ ((s.clm e).greet = some 0 ∧ c = .greetExpiry e)
        ∨ ((s.clm e).fade = some 0 ∧ c = .fadeExpiry e) ∨ ((s.clm e).rouse = some 0 ∧ c = .rouseExpiry e) := by
  simp [State.linkMoments, isDue_iff]

theorem State.startIsDue_iff (s : State) (p : Port) :
    s.startIsDue p = true ↔ (s.eqm.port p).tx = none ∧ s.pick p ≠ none := by
  simp [State.startIsDue, Option.isSome_iff_ne_none]

/-- The moments that are due, one by one. -/
theorem State.mem_moments (s : State) (c : Instr) :
    c ∈ s.moments ↔
      (∃ e, c ∈ s.linkMoments e) ∨ (s.ng.timer = some 0 ∧ c = .noticeTimerExpiry)
        ∨ (s.su.timer = some 0 ∧ c = .stagingTimerExpiry) ∨ (s.ru.grace = some 0 ∧ c = .graceTimerExpiry)
        ∨ ∃ p, s.startIsDue p = true ∧ c = .transmissionStart p := by
  simp only [State.moments, List.mem_append, mem_momentIf, isDue_iff]
  constructor
  · rintro (((((((h | h) | h) | h) | h) | h) | h) | h)
    · exact .inl ⟨.a, h⟩
    · exact .inl ⟨.b, h⟩
    · exact .inr (.inl h)
    · exact .inr (.inr (.inl h))
    · exact .inr (.inr (.inr (.inl h)))
    · exact .inr (.inr (.inr (.inr ⟨.a, h⟩)))
    · exact .inr (.inr (.inr (.inr ⟨.b, h⟩)))
    · exact .inr (.inr (.inr (.inr ⟨.c, h⟩)))
  · rintro (⟨e, h⟩ | h | h | h | ⟨p, h⟩)
    · cases e <;> simp [h]
    · simp [h]
    · simp [h]
    · simp [h]
    · cases p <;> simp [h]

/-- An idle part lets a microsecond pass, or takes a moment that is due; only the model's counter may move before. -/
theorem State.idle_cases (s : State) :
    (s.moments = [] ∧ s.idle = .next s.tick)
      ∨ ∃ c ∈ s.moments, ∃ n, (n = s.free ∨ n = s.free + 1) ∧ s.idle = exec c { s with free := n } := by
  unfold State.idle
  split
  case h_1 h => exact .inl ⟨h, rfl⟩
  case h_2 c h => exact .inr ⟨c, by simp [h], s.free, .inl rfl, rfl⟩
  case h_3 c d rest h =>
    refine .inr ⟨_, ?_, _, .inr rfl, rfl⟩
    have hi : Config.freeMoment s.free % (rest.length + 2) < (c :: d :: rest).length :=
      Nat.mod_lt (Config.freeMoment s.free) (Nat.succ_pos (rest.length + 1))
    rw [h, List.getD_eq_getElem?_getD, List.getElem?_eq_getElem hi]
    exact List.getElem_mem hi

/-- What a step that answers a next state did. -/
theorem step_cases {s t : State} (h : step s = .next t) :
    (∃ c rest, s.pending = c :: rest ∧ exec c { s with pending := rest } = .next t)
      ∨ (s.pending = [] ∧ s.moments = [] ∧ t = s.tick)
      ∨ (s.pending = [] ∧ ∃ c ∈ s.moments, ∃ n, exec c { s with free := n } = .next t) := by
  unfold step at h
  split at h
  case h_1 hp =>
    rcases s.idle_cases with ⟨hm, hi⟩ | ⟨c, hc, n, -, hi⟩
    · rw [hi] at h
      cases h
      exact .inr (.inl ⟨hp, hm, rfl⟩)
    · exact .inr (.inr ⟨hp, c, hc, n, hi ▸ h⟩)
  case h_2 c rest hp => exact .inl ⟨c, rest, hp, h⟩

end Sys2Proof.Machine
end

