-- ==== Sys2Proof/Laws/Egress.lean ====
section
/-! SUPPORT. Everything a command can do to the egress queue manager, said once: a property of the queue manager that its operations
keep, every command keeps. -/

namespace Sys2Proof.Machine

/-- A property of the queue manager that each of its operations keeps. -/
structure EqmClosed (P : Eqm → Prop) : Prop where
  admitCopy : ∀ q j m p c e, P q → P (Eqm.admitCopy q j m p c e).1
  purge : ∀ q p c r, P q → P (Eqm.purgeQueue q p c r).1
  abort : ∀ q p, P q → P (Eqm.abortLost q p).1
  abandon : ∀ q p, P q → P (Eqm.abandonLinkControl q p)
  reevaluate : ∀ s : State, P s.eqm → P (s.evaluateQueues s.eqm reevaluationOrder s.eqm []).1
  begin : ∀ (s : State) p x, (s.eqm.port p).tx = none → s.pick p = some x → P s.eqm → P (s.begin p x).eqm
  complete : ∀ q p t, (Eqm.port q p).tx = some t → P q →
    P { q.setPort p { q.port p with tx := none } with freeCells := q.freeCells + t.item.cells }
  emptied : ∀ q, P q → P (Eqm.emptied q)
  powerOn : P Eqm.powerOn
  readOvertaken : ∀ q, P q → P { q with overtaken := [], overflow := false }
  setHold : ∀ q h, P q → P { q with hold := h }

namespace EqmClosed

variable {P : Eqm → Prop} (k : EqmClosed P)
include k

theorem offer (s : State) (p : Port) (c : Cls) (e : Entry) (h : P s.eqm) : P (s.offer p c e).eqm := by
  have := k.admitCopy s.eqm (s.portJoined p) (s.portMatched p) p c e h
  unfold State.offer
  split <;> (rename_i heq; rw [heq] at this; simpa using this)

theorem floodPort (s : State) (i : Ingress) (f : Frame) (e : End) (h : P s.eqm) : P (s.floodPort i f e).eqm := by
  unfold State.floodPort
  repeat' split
  all_goals first | exact h | exact k.offer _ _ _ _ h

theorem flood (s : State) (i : Ingress) (f : Frame) (h : P s.eqm) : P (s.flood i f).eqm :=
  k.floodPort _ _ _ _ (k.floodPort _ _ _ _ h)

theorem routeResponse (s : State) (i : Ingress) (f : Frame) (w : Word) (h : P s.eqm) : P (s.routeResponse i f w).eqm := by
  unfold State.routeResponse
  repeat' split
  all_goals first | exact h | exact k.offer _ _ _ _ h | exact k.flood _ _ _ h

theorem answer (s : State) (t : ReplyTo) (o : ReplyCode) (d : List Byte) (h : P s.eqm) : P (s.answer t o d).eqm := by
  unfold State.answer
  dsimp only
  split
  · exact k.offer _ _ _ _ h
  · exact k.routeResponse _ _ _ _ h
  · exact k.routeResponse _ _ _ _ h

theorem respond (s : State) (r : Request) (c : Byte) (o : ReplyCode) (d : List Byte) (h : P s.eqm) :
    P (s.respond r c o d).eqm := by
  unfold State.respond
  split
  · exact h
  · exact k.answer _ _ _ _ h

theorem refuse (s : State) (r : Request) (c : Byte) (o : ReplyCode) (d : List Byte) (h : P s.eqm) :
    P (s.refuse r c o d).eqm := k.respond _ _ _ _ _ h

theorem purgeQueues (q : Eqm) (p : Port) (r : Reason) (cs : List Cls) (h : P q) : P (q.purgeQueues p r cs).1 := by
  induction cs generalizing q with
  | nil => exact h
  | cons c cs ih => exact ih _ (k.purge _ _ _ _ h)

theorem linkLossPurge (s : State) (p : Port) (h : P s.eqm) : P (s.linkLossPurge p).eqm :=
  k.purgeQueues _ _ _ _ (k.abort _ _ h)

theorem standingLeavePurge (s : State) (e : End) (h : P s.eqm) : P (s.standingLeavePurge e).eqm :=
  k.purgeQueues _ _ _ _ h

theorem purgeIfLeft (s : State) (u : RosterUnit) (e : End) (h : P s.eqm) : P (s.purgeIfLeft u e).eqm := by
  unfold State.purgeIfLeft
  split
  · exact k.standingLeavePurge _ _ h
  · exact h

theorem offerNotice (s : State) (f : Frame) (e : End) (h : P s.eqm) : P (s.offerNotice f e).eqm := by
  unfold State.offerNotice
  split
  · exact k.offer _ _ _ _ h
  · exact h

theorem emit (s : State) (h : P s.eqm) : P s.emit.eqm :=
  k.offer _ _ _ _ (k.offerNotice _ _ _ (k.offerNotice _ _ _ h))

theorem handOverNotice (s : State) (l : Bool) (u : RosterUnit) (h : P s.eqm) : P (s.handOverNotice l u).eqm := by
  unfold State.handOverNotice
  split
  · exact k.emit _ h
  · exact h

theorem linkChange (s : State) (h : P s.eqm) : P s.linkChange.eqm :=
  k.handOverNotice _ _ _ (k.purgeIfLeft _ _ _ (k.purgeIfLeft _ _ _ h))

omit k in
theorem settleIfReady (s : State) (e : End) (h : P s.eqm) : P (s.settleIfReady e).eqm := by
  unfold State.settleIfReady
  split
  · simpa using h
  · exact h

theorem enterDark (s : State) (e : End) (h : P s.eqm) : P (s.enterDark e).eqm :=
  EqmClosed.settleIfReady _ _ (k.abandon _ _ (by simpa using h))

theorem loseToDark (s : State) (e : End) (l : LossCause) (h : P s.eqm) : P (s.loseToDark e l).eqm :=
  k.linkChange _ (k.linkLossPurge _ _ (k.enterDark _ _ (by simpa using h)))

theorem lose (s : State) (e : End) (l : LossCause) (c : Option Candidate) (h : P s.eqm) : P (s.lose e l c).eqm := by
  unfold State.lose
  split
  · exact k.loseToDark _ _ _ h
  · exact k.linkChange _ (k.linkLossPurge _ _ (by simpa using h))

theorem wake (s : State) (h : P s.eqm) : P s.wake.eqm :=
  k.enterDark _ _ (k.enterDark _ _ h)

theorem enterListen (s : State) (e : End) (h : P s.eqm) : P (s.enterListen e).eqm :=
  k.abandon _ _ (by simpa using h)

theorem enterDormant (s : State) (h : P s.eqm) : P s.enterDormant.eqm :=
  k.emptied _ (k.enterListen _ _ (k.enterListen _ _ h))

theorem restarted (s : State) : P s.restarted.eqm := EqmClosed.settleIfReady _ _ (EqmClosed.settleIfReady _ _ k.powerOn)

theorem arbitrate (s : State) (p : Port) (h : P s.eqm) : P (s.arbitrate p).eqm := by
  unfold State.arbitrate
  split
  · exact h
  · rename_i hn
    split
    · exact h
    · rename_i x hx
      exact k.begin s p x (by simpa using hn) hx h

theorem begun (s : State) (h : P s.eqm) : P s.begun.eqm := k.arbitrate _ _ (k.arbitrate _ _ (k.arbitrate _ _ h))

theorem completed (s : State) (p : Port) (h : P s.eqm) : P (s.completed p).eqm := by
  unfold State.completed
  split
  · exact h
  · rename_i t ht
    have h1 := k.complete s.eqm p t ht h
    dsimp only
    repeat' split
    all_goals first | exact k.enterDormant _ (by simpa using h1) | simpa using h1

theorem enactment (s : State) (b : StagingBody) (r : ConfirmedRecord) (h : P s.eqm) : P (s.enactment b r).eqm :=
  k.begun _ (k.handOverNotice _ _ _ (k.begun _ (k.purgeIfLeft _ _ _ (k.purgeIfLeft _ _ _ (k.reevaluate _ h)))))

theorem answerAbandoned (s : State) (h : P s.eqm) : P s.answerAbandoned.eqm := by
  unfold State.answerAbandoned
  split
  · exact k.answer _ _ _ _ h
  · exact h
  · exact h
  · exact h

theorem enactConfirmed (s : State) (h : P s.eqm) : P s.enactConfirmed.eqm := by
  unfold State.enactConfirmed
  split
  · exact k.enactment _ _ _ h
  · exact h
  · exact h
  · exact h

theorem runCommand (s : State) (c : Command) (r : Request) (h : P s.eqm) : P (s.runCommand c r).eqm := by
  cases c <;> simp only [State.runCommand]
  case setIdentity =>
    unfold State.cmdSetIdentity
    repeat' split
    · exact k.refuse _ _ _ _ _ h
    · exact k.refuse _ _ _ _ _ h
    · exact k.respond _ _ _ _ _ (EqmClosed.settleIfReady _ _ (EqmClosed.settleIfReady _ _ h))
  case sleep =>
    unfold State.cmdSleep
    dsimp only
    repeat' split
    · exact k.refuse _ _ _ _ _ h
    · exact k.offer _ _ _ _ h
    · exact k.offer _ _ _ _ h
    · exact k.enterDormant _ (k.offer _ _ _ _ h)
  case restart =>
    unfold State.cmdRestart
    split
    · exact k.refuse _ _ _ _ _ h
    · exact k.restarted _
  case readOvertaken =>
    unfold State.cmdReadOvertaken
    split
    · exact k.respond { s with eqm := { s.eqm with overtaken := [], overflow := false } } _ _ _ _ (k.readOvertaken _ h)
    · exact k.refuse _ _ _ _ _ h
  case loadBegin =>
    unfold State.cmdLoadBegin
    repeat' split
    · exact k.refuse _ _ _ _ _ h
    · exact k.refuse _ _ _ _ _ h
    · exact k.respond _ _ _ _ _ (k.answerAbandoned _ h)
  case discard =>
    unfold State.cmdDiscard
    repeat' split
    · exact k.refuse _ _ _ _ _ h
    · exact k.refuse _ _ _ _ _ h
    · exact k.respond _ _ _ _ _ (k.answerAbandoned _ h)
  case enact =>
    unfold State.cmdEnact
    split
    · exact k.refuse _ _ _ _ _ h
    · exact k.respond _ _ _ _ _ (k.enactConfirmed _ h)
  case hold =>
    unfold State.cmdHold
    split
    · exact k.refuse _ _ _ _ _ h
    · apply k.respond
      exact k.setHold _ _ h
  case release =>
    unfold State.cmdRelease
    split
    · exact k.refuse _ _ _ _ _ h
    · apply k.respond
      apply k.begun
      exact k.setHold _ _ h
  case setTiming =>
    have hs : ∀ p v, (s.setTiming p v).eqm = s.eqm := by
      intro p v; unfold State.setTiming; dsimp only; split <;> rfl
    unfold State.cmdSetTiming
    split
    · dsimp only
      split
      · exact k.respond _ _ _ _ _ (by rw [hs]; exact h)
      · exact k.refuse _ _ _ _ _ h
    · exact k.refuse _ _ _ _ _ h
  all_goals
    simp only [State.cmdReleaseWake, State.cmdReadState, State.cmdReadRoster, State.cmdReadCapture, State.cmdRuleRead,
      State.cmdLoadRecords, State.cmdConfirm, State.cmdRuleWrite, State.cmdSetClass]
    repeat' split
    all_goals first | exact h | exact k.refuse _ _ _ _ _ h | (apply k.respond; exact h)

theorem handle (s : State) (c : Command) (r : Request) (h : P s.eqm) : P (s.handle c r).eqm := by
  unfold State.handle
  split
  · exact k.refuse _ _ _ _ _ h
  · exact k.runCommand _ _ _ h

theorem handleCode (s : State) (c : Byte) (r : Request) (h : P s.eqm) : P (s.handleCode c r).eqm := by
  unfold State.handleCode
  split
  · exact k.handle _ _ _ h
  · exact k.refuse _ _ _ _ _ h

theorem request (s : State) (c : Command) (r : Request) (h : P s.eqm) : P (s.request c r).eqm := by
  unfold State.request
  split
  · exact k.handle _ _ _ h
  · exact h

theorem offerCopies (s : State) (p : Port) (f : Frame) (o : ClassOutcome) (l : List Port) (h : P s.eqm) :
    P (s.offerCopies p f o l).eqm := by
  induction l generalizing s with
  | nil => exact h
  | cons q l ih => exact ih _ (k.offer _ _ _ _ h)

theorem routeData (s : State) (p : Port) (f : Frame) (h : P s.eqm) : P (s.routeData p f).eqm := by
  unfold State.routeData
  dsimp only
  split
  · exact h
  · split
    · exact k.offer _ _ _ _ (k.offerCopies _ _ _ _ _ h)
    · exact k.offerCopies _ _ _ _ _ h

theorem foreignCheck (s : State) (e : End) (f : Frame) (h : P s.eqm) : P (s.foreignCheck e f).eqm := by
  unfold State.foreignCheck
  split
  · exact k.routeData _ _ _ h
  · exact h

theorem judgeGeneration (s : State) (e : End) (f : Frame) (h : P s.eqm) : P (s.judgeGeneration e f).eqm := by
  unfold State.judgeGeneration
  repeat' split
  all_goals first | exact h | exact k.foreignCheck _ _ _ h

theorem forwardNotice (s : State) (p : Port) (f : Frame) (h : P s.eqm) : P (s.forwardNotice p f).eqm := by
  unfold State.forwardNotice
  dsimp only
  split
  · exact k.flood _ _ _ h
  · exact k.offer _ _ _ _ (k.flood _ _ _ h)

omit k in
theorem interpret (s : State) (f : Frame) (h : P s.eqm) : P (s.interpret f).eqm := by
  unfold State.interpret
  split <;> exact h

theorem receiveNotice (s : State) (p : Port) (f : Frame) (h : P s.eqm) : P (s.receiveNotice p f).eqm := by
  have h1 := EqmClosed.interpret s f h
  unfold State.receiveNotice
  dsimp only
  repeat' split
  · exact k.forwardNotice _ _ _ h1
  · exact k.emit _ (k.forwardNotice _ _ _ h1)
  · exact k.forwardNotice _ _ _ (k.emit _ h1)

theorem receiveRequest (s : State) (p : Port) (f : Frame) (h : P s.eqm) : P (s.receiveRequest p f).eqm := by
  unfold State.receiveRequest
  dsimp only
  repeat' split
  · exact k.handleCode _ _ _ (k.flood _ _ _ h)
  · exact k.flood _ _ _ (k.handleCode _ _ _ h)
  · exact k.flood _ _ _ (k.handleCode _ _ _ h)
  · exact k.handleCode _ _ _ h
  · exact k.flood _ _ _ h

theorem routeControl (s : State) (p : Port) (f : Frame) (h : P s.eqm) : P (s.routeControl p f).eqm := by
  unfold State.routeControl
  split
  · exact k.receiveRequest _ _ _ h
  · exact k.routeResponse _ _ _ _ h
  · exact k.receiveNotice _ _ _ h
  all_goals exact h

theorem implicitEnactment (s : State) (f : Frame) (h : P s.eqm) : P (s.implicitEnactment f).eqm := by
  unfold State.implicitEnactment
  repeat' split
  all_goals first | exact h | exact k.enactment _ _ _ h

theorem afterDispatch (s : State) (e : End) (f : Frame) (h : P s.eqm) : P (s.afterDispatch e f).eqm := by
  have h1 := k.implicitEnactment s f h
  unfold State.afterDispatch
  dsimp only
  split
  · exact k.judgeGeneration _ _ _ h1
  · exact k.routeControl _ _ _ h1

theorem validGreet (s : State) (e : End) (g : GreetBody) (h : P s.eqm) : P (s.validGreet e g).eqm := by
  unfold State.validGreet
  dsimp only
  repeat' split
  all_goals first | exact k.lose _ _ _ _ h | exact h | (simpa using h) | exact k.linkChange _ (by simpa using h)

theorem greetReceipt (s : State) (e : End) (f : Frame) (h : P s.eqm) : P (s.greetReceipt e f).eqm := by
  unfold State.greetReceipt
  repeat' split
  all_goals first | exact h | exact k.validGreet _ _ _ h

theorem intakeCoupler (s : State) (e : End) (b : List Byte) (h : P s.eqm) : P (s.intakeCoupler e b).eqm := by
  unfold State.intakeCoupler State.dispatch
  repeat' split
  all_goals first | exact h | exact k.afterDispatch _ _ _ h | exact k.greetReceipt _ _ _ h

theorem intakeC (s : State) (b : List Byte) (h : P s.eqm) : P (s.intakeC b).eqm := by
  unfold State.intakeC
  repeat' split
  all_goals first | exact h | exact k.routeData _ _ _ h | exact k.routeControl _ _ _ h

theorem rouseFilter (s : State) (e : End) (b : List Byte) (h : P s.eqm) : P (s.rouseFilter e b).eqm := by
  unfold State.rouseFilter
  split
  · exact k.wake _ h
  · exact h

theorem greetExpired (s : State) (e : End) (h : P s.eqm) : P (s.greetExpired e).eqm := by
  unfold State.greetExpired
  dsimp only
  repeat' split
  all_goals first
    | (simp only [State.greetInJoined]; split <;> first | exact k.lose _ _ _ _ (by simpa using h) | simpa using h)
    | simpa using h

theorem finishDone (s : State) (h : P s.eqm) : P s.finishDone.eqm := by
  unfold State.finishDone State.finishWith
  repeat' split
  all_goals first | exact h | exact k.answer _ _ _ _ h

/-- A property that the operations of the queue manager keep, every command keeps. -/
theorem exec (i : Instr) (s t : State) (h : P s.eqm) (e : exec i s = .next t) : P t.eqm := by
  have hb := k.begun s h
  cases i <;> cases e
  case transmissionStart p => exact k.arbitrate _ _ h
  case powerOnReset => exact k.powerOn
  all_goals
    dsimp only
    clear h
    generalize s.begun = s at hb
    have h := hb
  case presenceAssertion e =>
    split
    · exact h
    · unfold State.presenceAsserted
      split <;> first | exact EqmClosed.settleIfReady _ _ (by simpa using h) | simpa using h
  case presenceNegation e =>
    split
    · unfold State.presenceNegated
      split <;> first | exact k.enterDark _ _ (by simpa using h) | simpa using h
    · exact h
  case wakeInAssertion =>
    repeat' split
    · exact h
    · exact k.wake _ h
    · exact h
  case arrivalOnCouplerPort e b => split <;> first | exact k.intakeCoupler _ _ _ h | exact k.rouseFilter _ _ _ h
  case arrivalOnPortC b => split <;> first | exact k.intakeC _ _ h | exact h
  case dormantArrival e b => split <;> first | exact k.intakeCoupler _ _ _ h | exact k.rouseFilter _ _ _ h
  case settleExpiry e =>
    split
    · unfold State.settleExpired
      split <;> simpa using h
    · exact h
  case greetExpiry e => split <;> first | exact k.greetExpired _ _ h | exact h
  case answerLimitReached e => split <;> first | exact k.greetExpired _ _ h | exact h
  case silenceLimitReached e => split <;> first | exact k.greetExpired _ _ h | exact h
  case fadeExpiry e =>
    split
    · unfold State.fadeExpired
      split
      · exact k.loseToDark _ _ _ h
      · simpa using h
    · exact h
  case rouseExpiry e =>
    split
    · unfold State.rouseExpired
      split <;> simpa using h
    · exact h
  case rouseBurstReached e =>
    split
    · unfold State.rouseExpired
      split <;> simpa using h
    · exact h
  case noticeTimerExpiry =>
    split
    · unfold State.noticeExpired
      split
      · exact h
      · exact k.emit _ (by exact h)
    · exact h
  case transmissionCompletion p => split <;> first | exact k.completed _ _ h | exact h
  case blockFoldCompletion => unfold State.blockFoldDone; split <;> exact h
  case finishCompletion => exact k.finishDone _ h
  case stagingTimerExpiry =>
    split
    · exact k.answerAbandoned _ h
    · exact h
  case graceTimerExpiry => split <;> exact h
  case wakeInNegation => exact h
  case unknownCommand c r =>
    split
    · exact k.handleCode _ _ _ h
    · exact h
  all_goals exact k.request _ _ _ h

/-- A property that the operations of the queue manager keep, every step keeps. -/
theorem step (s t : State) (h : P s.eqm) (e : step s = .next t) : P t.eqm := by
  rcases step_cases e with ⟨c, rest, -, e⟩ | ⟨-, -, rfl⟩ | ⟨-, c, -, n, e⟩
  · exact k.exec _ _ _ (by exact h) e
  · exact h
  · exact k.exec _ _ _ (by exact h) e

end EqmClosed

end Sys2Proof.Machine
end

