-- ==== Sys2Proof/Tests/Slice0.lean ====
section
/-! SUPPORT. The model's own tests: the check of ill-formed commands, one or two small steps of every command with what the spec's
rules and examples give for them, and for every statement with hypotheses a witness that meets them. -/

set_option Elab.async false

namespace Sys2Proof.Tests

open Sys2Proof.Machine

/-! ## States and frames the tests start from -/

/-- The next state of a command. -/
def after (i : Instr) (s : State) : State :=
  match exec i s with
  | .next t => t
  | .fault _ => s
  | .refused _ => s

/-- A part with an identity, alone. -/
def named : State := { State.reset with cu := { CommandUnit.powerOn with identity := 0xE101, loaded := true } }

/-- A link monitor in a state with one part of it given. -/
def linkIn (l : LinkState) : Clm := { Clm.powerOn with link := l }

/-- A JOINED link to a car and end. -/
def joinedTo (w : Word) (e : Byte) : Clm :=
  { linkIn .joined with
    greet := some 20000, greetHeard := true, neighbour := some { identity := w, endCode := e, generation := 0x0302, joinedAt := 0 } }

def car (w : Word) (p : Nat) (m : Bool) : Record := { identity := w, position := p, orientation := .normal, master := m }

/-- The corrected roster of the example of 06 section 6.6. -/
def unit3 : List Record := [car 0xE103 1 false, car 0xE101 2 true, car 0xE102 3 false]

/-- The roster of that example before the correction. -/
def unit3Before : List Record := [car 0xE101 1 true, car 0xE102 2 false, car 0xE103 3 false]

/-- The middle car of that unit, with both ends MATCHED. -/
def middle : State :=
  { named with
    lines := { presenceA := true, presenceB := true, wakeIn := false }
    clmA := joinedTo 0xE103 2, clmB := joinedTo 0xE102 1
    ru := { RosterUnit.powerOn with
            active := { records := unit3, generation := 0x0302, context := foldContext unit3 }
            standingA := .matched, standingB := .matched, authority := .governed } }

/-- The middle car while the prior roster is still kept. -/
def changed : State :=
  { middle with ru := { middle.ru with prior := some { records := unit3Before, generation := 0x0301 }, grace := some 2000000 } }

/-- The same unit with its tail car lost: end B DARK and MISSING, and the notice timer running. -/
def cut : State :=
  { middle with
    lines := { middle.lines with presenceB := false }
    clmB := linkIn .dark, ru := { middle.ru with standingB := .missing, cutMap := [2] }, ng := { settled := false, timer := some 0 } }

/-- The last car of a train of four whose lead car is the master, with its one adjacency whole. -/
def last : State :=
  { named with
    clmA := joinedTo 0xE102 2
    ru := { RosterUnit.powerOn with
            active := { records := [car 0xE104 1 true, car 0xE103 2 false, car 0xE102 3 false, car 0xE101 4 false], generation := 0x0302
                        context := 0 }
            standingA := .matched, authority := .governed } }

/-- A part gone to sleep. -/
def asleep : State := { named with power := .dormant, clmA := linkIn .listen, clmB := linkIn .listen }

def request (p : Port) (src : Word) (params : List Byte) : Request :=
  { port := p, source := src, seqTag := 7, target := 0xE101, requestTag := 9, params := params }

/-- A request of the own equipment. -/
def ask (params : List Byte) : Request := request .c 0 params

def staged : StagingBody := { owner := 0, mode := .fresh, records := unit3, context := foldContext unit3 }

def ticket (expected : Word) : ConfirmTicket :=
  { generation := 0x0303, count := 3, expected := expected, requestTag := 9, seqTag := 7, port := .c }

def record : ConfirmedRecord :=
  { generation := 0x0303, count := 3, check := rosterCheckWord unit3 0x0303 3, context := foldContext unit3, owner := 0 }

def filling : State := { middle with su := { staging := .filling staged, job := .idle, timer := some 0 } }

def confirming (expected : Word) : State :=
  { middle with su := { staging := .confirming staged (ticket expected)
                        job := .finish (foldContext unit3) (trailer 0x0303 3), timer := some 0 } }

def confirmed : State := { middle with su := { staging := .confirmed staged record, job := .idle, timer := some 0 } }

def frame (k : Kind) (g : Half) (dst : Byte) (payload : List Byte) : Frame :=
  { kind := k, hop := 30, generation := g, dstPos := dst, dstDev := 20, srcPos := 1, srcDev := 1, srcId := 0xE103, tag := 0x0105
    payload := payload }

/-- A GREET of the car 00002002h, end A, that names the end B of this car. -/
def naming : Frame := frame .greet 0x0302 0 [0, 0, 0x20, 2, 1, 3, 2, 0, 0, 0xE1, 1, 2]

/-- A ROUSE for every car (R28). -/
def rouseAll : Frame := frame .rouse 0 0 (List.replicate 8 0x5A ++ List.replicate 24 0xFF)

def entry (f : Frame) (k : Option CyclicKey) : Entry :=
  { frame := f, ingress := .port .a, key := k, localCopy := false, sleepResponse := false }

def key : CyclicKey := { identity := 0xE103, publication := 0x0105 }

/-- The command code, outcome and result data of the response at the tail of C0 of port C. -/
def reply (s : State) : List Byte := ((s.eqm.portC.c0.getLast?.map (fun x => x.frame.payload)).getD []).drop 10

/-! ## Commands the check of well-formedness refuses -/

theorem test_overlong_parameters : (Instr.hold (ask (List.replicate 993 0))).wellFormed = false := by decide +kernel
theorem test_longest_parameters : (Instr.hold (ask (List.replicate 992 0))).wellFormed = true := by decide +kernel
theorem test_read_state_with_option_01 : (Instr.readState (ask [1])).wellFormed = false := by decide
theorem test_read_state_clear_with_option_00 : (Instr.readStateClear (ask [0])).wellFormed = false := by decide
theorem test_fresh_with_mode_02 : (Instr.loadBeginFresh (ask [2])).wellFormed = false := by decide
theorem test_extend_with_mode_01 : (Instr.loadBeginExtend (ask [1])).wellFormed = false := by decide
theorem test_unknown_with_defined_code : (Instr.unknownCommand 0x24 (ask [])).wellFormed = false := by decide

/-! ## Bytes -/

/-- R8: the check value of the check function. -/
theorem test_check_value : checkWord [0x31, 0x32, 0x33, 0x34, 0x35, 0x36, 0x37, 0x38, 0x39] = 0x0376E6E7 := by decide +kernel

/-- R9: a frame the part builds passes, and one wrong byte fails. -/
theorem test_frame_check : parseFrame naming.wire = some naming ∧ parseFrame (0x0D :: naming.wire.tail) = none := by decide +kernel

/-! ## Lines, resets and dormancy -/

/-- The example of 02 section 2.10, t = 0. -/
theorem test_presence_assertion :
    (after (.presenceAssertion .b) named).clmB = { linkIn .settling with settle := some 200000 } := by decide +kernel
theorem test_presence_negation :
    let t := after (.presenceNegation .b) middle
    t.clmB = { middle.clmB with link := .fading, fade := some 60000 } ∧ t.lines = cut.lines := by decide +kernel
theorem test_wake_in_assertion :
    (after .wakeInAssertion asleep).power = .active ∧ (after .wakeInAssertion asleep).clmA.link = .dark := by decide +kernel
theorem test_wake_in_negation : (after .wakeInNegation (after .wakeInAssertion asleep)).lines.wakeIn = false := by decide +kernel
theorem test_power_on_reset : after .powerOnReset middle = { State.reset with lines := middle.lines } := by decide +kernel
/-- The example of 03 section 3.9, t = 801. -/
theorem test_dormant_arrival :
    let t := after (.dormantArrival .a rouseAll.wire) { asleep with lines := { asleep.lines with presenceA := true } }
    t.power = .active ∧ t.wakeOutput = true ∧ t.clmA.settle = some 200000
      ∧ t.rouse.capture.map (fun c => (c.length, c.arrival)) = some (52, End.a) := by decide +kernel

/-! ## Arrivals -/

/-- The example of 02 section 2.10, t = 220: a GREET that names the part joins the link and reports the link change. -/
theorem test_arrival_of_greet :
    let t := after (.arrivalOnCouplerPort .b naming.wire) { named with clmB := linkIn .greeting }
    t.clmB.link = .joined ∧ t.ru.standingB = .foreign ∧ t.ng.timer = some 250000 ∧ t.eqm.portB.c0.length = 1 := by decide +kernel
/-- A MESSAGE for the tail car goes from end A to end B. -/
theorem test_arrival_of_message :
    let t := after (.arrivalOnCouplerPort .a (frame .message 0x0302 3 []).wire) middle
    t.eqm = { middle.eqm with freeCells := 767
                              portB := { PortQueues.empty with c2 := [entry (frame .message 0x0302 3 []) none] } } := by
  decide +kernel
/-- A PROCESS frame of the own equipment is stamped (R6) and goes out at both ends in C1. -/
theorem test_arrival_on_port_c :
    let t := after (.arrivalOnPortC (frame .process 0x1111 0 []).wire) middle
    t.eqm.portA.c1.map (fun x => (x.frame.generation, x.frame.srcPos, x.frame.srcId, x.frame.hop)) = [(0x0302, 2, 0xE101, 31)]
      ∧ t.eqm.portB.c1.length = 1 ∧ t.eqm.portC.c1 = [] := by decide +kernel

/-- R132, R17: a report of a JOINED link to the expected neighbour takes its adjacency out of the map, whatever the standing code; one
with an unknown link state code enters it. -/
theorem test_standing_codes :
    let s : State := { middle with cu := { middle.cu with identity := 0xE103 } }
    let notice (link st : Byte) : Frame :=
      { frame .notice 0x0302 0 ([2, 0, 0, 0] ++ [link, st, 0, 0, 0xE1, 1, 2, 0, 0, 0, 0, 0] ++ [1, 4, 0, 0, 0, 0, 0, 0, 0, 0, 0, 0]) with
        srcId := 0xE102 }
    (∀ st ∈ [(1 : Byte), 2, 9], (s.interpret (notice 5 st)).ru.cutMap = []) ∧ (s.interpret (notice 9 1)).ru.cutMap = [2] := by
  decide +kernel

/-! ## Link monitor and notice timers -/

/-- R21: with time left there is no expiry to take. -/
theorem test_settle_timer_running :
    let s : State := { named with clmB := { linkIn .settling with settle := some 1 } }
    after (.settleExpiry .b) s = s := by decide +kernel

theorem test_settle_expiry :
    (after (.settleExpiry .b) { named with clmB := { linkIn .settling with settle := some 0 } }).clmB
      = { linkIn .greeting with greet := some 20000, slot := { greet := true, rouse := false } } := by decide +kernel
theorem test_greet_expiry :
    (after (.greetExpiry .b) { named with clmB := { linkIn .greeting with greet := some 0 } }).clmB
      = { linkIn .greeting with greet := some 20000, answerCount := 1, slot := { greet := true, rouse := false } } := by decide +kernel
theorem test_answer_limit_reached :
    (after (.answerLimitReached .b) { named with clmB := { linkIn .greeting with greet := some 0, answerCount := 24 } }).clmB
      = { linkIn .mute with greet := some 20000, answerCount := 25, rouse := some 100000
                            slot := { greet := true, rouse := false } } := by decide +kernel
theorem test_silence_limit_reached :
    let t := after (.silenceLimitReached .b)
      { middle with clmB := { middle.clmB with greet := some 0, greetHeard := false, silenceCount := 4 } }
    t.clmB.link = .greeting ∧ t.clmB.lastChange.cause = .silent ∧ t.ru.standingB = .missing ∧ t.ru.cutMap = [2] := by
  decide +kernel
theorem test_fade_expiry :
    let t := after (.fadeExpiry .b) { middle with lines := cut.lines, clmB := { middle.clmB with link := .fading, fade := some 0 } }
    t.clmB = { linkIn .dark with lastChange := { clock := 0, cause := .uncoupled } } ∧ t.ru.cutMap = [2] := by decide +kernel
theorem test_rouse_expiry :
    (after (.rouseExpiry .b) { named with clmB := { linkIn .mute with rouse := some 0 } }).clmB
      = { linkIn .mute with rouse := some 100000, rouseCount := 1, slot := { greet := false, rouse := true } } := by decide +kernel
theorem test_rouse_burst_reached :
    (after (.rouseBurstReached .b) { named with clmB := { linkIn .mute with rouse := some 0, rouseCount := 19 } }).clmB
      = { linkIn .mute with rouseCount := 20, slot := { greet := false, rouse := true } } := by decide +kernel
theorem test_notice_timer_expiry :
    let t := after .noticeTimerExpiry cut
    t.ng.timer = some 250000 ∧ t.eqm.portA.c0.length = 1 ∧ t.eqm.portB.c0 = []
      ∧ t.eqm.portC.c0.map (fun x => (x.frame.kind, x.frame.payload.take 6)) = [(.notice, [2, 0, 0, 0, 5, 1])] := by decide +kernel

/-- R130: a hand-over that leaves the part unsettled, taken before an expiry of that moment, gives two emissions as well. -/
theorem test_notice_timer_expiry_after_hand_over :
    let t := after .noticeTimerExpiry cut.linkChange
    cut.linkChange.ng.timer = some 0 ∧ t.ng.timer = some 250000 ∧ t.eqm.portC.tx.isSome = true ∧ t.eqm.portC.c0.length = 1 := by
  decide +kernel

/-! ## Egress -/

/-- R161: of two frames that become eligible at an idle port the one taken first begins, whatever its class. -/
theorem test_first_taken_begins :
    let bulk := (frame .bulk 0x0302 3 []).wire
    let response := (frame .mgmtRsp 0x0302 0 (List.replicate 12 0)).wire
    let t := after (.arrivalOnCouplerPort .a response) (after (.arrivalOnCouplerPort .a bulk) middle)
    t.eqm.portB.c3 = [] ∧ t.eqm.portB.c0.length = 1
      ∧ t.eqm.portB.tx.map (fun x => x.item) = some (.queued .c3 (entry (frame .bulk 0x0302 3 []) none)) := by decide +kernel

/-- R5, R161, R163: C1 before C2; the hop limit on the line is one less. -/
theorem test_transmission_start :
    let m := entry (frame .message 0x0302 3 []) none
    let p := entry (frame .process 0x0302 3 []) none
    let t := after (.transmissionStart .b) { middle with eqm := { middle.eqm with freeCells := 766
                                                                                  portB := { PortQueues.empty with c1 := [p], c2 := [m] } } }
    t.eqm.portB.c1 = [] ∧ t.eqm.portB.c2 = [m] ∧ t.eqm.freeCells = 766
      ∧ t.eqm.portB.tx.map (fun x => (x.item, byteAt x.bytes 1)) = some (.queued .c1 p, 29) := by decide +kernel
theorem test_transmission_completion :
    let m := entry (frame .message 0x0302 3 (List.replicate 109 0)) none
    let t := after (.transmissionCompletion .b)
      { middle with eqm := { middle.eqm with freeCells := 766, portB := { PortQueues.empty with tx := some { item := .queued .c2 m, bytes := [] } } } }
    t.eqm = middle.eqm := by decide +kernel

/-- The middle car sends a MESSAGE at end B, a GREET of a changed neighbour is taken, and the link goes to GREETING. -/
def purged : State :=
  after (.arrivalOnCouplerPort .b naming.wire)
    { middle with eqm := { middle.eqm with
        freeCells := 767
        portB := { PortQueues.empty with tx := some { item := .queued .c2 (entry (frame .message 0x0302 3 []) none), bytes := [] } } } }

/-- R164: after the purge no completion follows. The pending GREET begins, and its own completion is the next one; the two cells that are
not free are those of the NOTICE for port A and port C. -/
theorem test_no_completion_follows_purge :
    let t := after (.transmissionCompletion .b) purged
    purged.eqm.portB = PortQueues.empty ∧ purged.eqm.freeCells = 766 ∧ purged.clmB.slot.greet = true
      ∧ t.clmB.slot.greet = false ∧ t.eqm.portB.tx.map (fun x => x.item) = some .greet ∧ t.eqm.freeCells = 766
      ∧ (after (.transmissionCompletion .b) t).eqm.portB.tx = none := by decide +kernel

/-! ## Staging, check unit and enactment -/

theorem test_load_begin_fresh :
    let t := after (.loadBeginFresh (ask [1])) middle
    t.su = { staging := .filling { owner := 0, mode := .fresh, records := [], context := 0xFFFFFFFF }, job := .idle, timer := some 5000000 }
      ∧ reply t = [0x20, 0x00, 0, 1] := by decide +kernel
theorem test_load_begin_extend :
    let t := after (.loadBeginExtend (ask [2])) middle
    t.su.staging = .filling { staged with mode := .extend } ∧ reply t = [0x20, 0x00, 3, 4] := by decide +kernel
theorem test_load_records :
    let t := after (.loadRecords (ask [1, 0, 0, 0xE1, 4, 4, 1])) filling
    t.su.staging = .filling { staged with records := unit3 ++ [{ car 0xE104 4 false with orientation := .reversed }] }
      ∧ t.su.job = .blockFold (foldContext unit3) [0, 0, 0xE1, 4, 4, 1] ∧ reply t = [0x21, 0x00, 4, 5] := by decide +kernel
theorem test_load_records_bad_position :
    reply (after (.loadRecords (ask [1, 0, 0, 0xE1, 4, 5, 1])) filling) = [0x21, 0x16, 1] := by decide +kernel
theorem test_block_fold_completion :
    let image := [0, 0, 0xE1, 4, 4, 1]
    (after .blockFoldCompletion { filling with su := { filling.su with job := .blockFold (foldContext unit3) image } }).su
      = { filling.su with staging := .filling { staged with context := foldContext (unit3 ++ [{ car 0xE104 4 false with orientation := .reversed }]) } } := by
  decide +kernel
theorem test_confirm :
    let t := after (.confirm (ask [3, 3, 3, 1, 2, 3, 4])) filling
    t.su = { staging := .confirming staged (ticket 0x01020304), job := .finish (foldContext unit3) [3, 3, 3, 0xA5], timer := some 5000000 }
      ∧ t.eqm = filling.eqm := by decide +kernel
theorem test_finish_completion :
    (after .finishCompletion (confirming (rosterCheckWord unit3 0x0303 3))).su.staging = .confirmed staged record := by decide +kernel
theorem test_finish_completion_mismatch :
    let t := after .finishCompletion (confirming 0)
    t.su = StagingUnit.powerOn ∧ t.cu.refusals = 1 ∧ (reply t).take 2 = [0x22, 0x1D] := by decide +kernel
theorem test_discard : reply (after (.discard (ask [])) filling) = [0x23, 0x00, 2] := by decide +kernel
/-- R103: taken after the LOAD_RECORDS that restarted its timer, the expiry does not occur. -/
theorem test_staging_timer_restarted :
    let t := after (.loadRecords (ask [1, 0, 0, 0xE1, 4, 4, 1])) filling
    t.su.timer = some 5000000 ∧ (after .stagingTimerExpiry t).su = t.su := by decide +kernel
theorem test_staging_timer_expiry : (after .stagingTimerExpiry confirmed).su = StagingUnit.powerOn := by decide +kernel
theorem test_enact :
    let t := after (.enact (ask [3, 3])) confirmed
    t.ru.active = { records := unit3, generation := 0x0303, context := foldContext unit3 } ∧ t.ru.grace = some 2000000
      ∧ t.su = StagingUnit.powerOn ∧ reply t = [0x24, 0x00, 3, 3, 3, 2, 2] := by decide +kernel
/-- R109: taken after the enactment that restarted its timer, the expiry does not occur. -/
theorem test_grace_timer_restarted :
    let t := after (.enact (ask [3, 3])) { confirmed with ru := { changed.ru with grace := some 0 } }
    t.ru.grace = some 2000000 ∧ (after .graceTimerExpiry t).ru = t.ru := by decide +kernel
theorem test_grace_timer_expiry :
    after .graceTimerExpiry { changed with ru := { changed.ru with grace := some 0 } } = middle := by decide +kernel

/-! ## Other requests -/

theorem test_set_identity :
    let t := after (.setIdentity { ask [0, 0, 0xE1, 1] with target := 0 })
      { State.reset with lines := { State.reset.lines with presenceB := true } }
    t.cu = named.cu ∧ t.clmB.link = .settling ∧ reply t = [0x01, 0x00, 0, 0, 0xE1, 1] := by decide +kernel
theorem test_sleep :
    let t := after (.sleep (ask [])) middle
    t.cu.sleepPending = true ∧ t.power = .active ∧ t.eqm.portC.c0.map (fun x => x.sleepResponse) = [true] := by decide +kernel
theorem test_sleep_response_completes :
    (after (.transmissionCompletion .c) (after (.transmissionStart .c) (after (.sleep (ask [])) middle))).power = .dormant := by
  decide +kernel
theorem test_release_wake :
    let c : RouseCapture := { bytes := [], length := 52, arrival := .a, clock := 0 }
    let t := after (.releaseWake (ask [])) { named with rouse := { capture := some c, wakeFlag := true } }
    t.rouse = RouseFilter.powerOn ∧ reply t = [0x03, 0x00, 1] := by decide +kernel
theorem test_restart :
    after (.restart (ask [])) { cut with clock := 5 }
      = { named with clock := 5, lines := cut.lines, clmA := { linkIn .settling with settle := some 200000 } } := by decide +kernel
theorem test_read_state :
    (reply (after (.readState (ask [0])) middle)).take 10 = [0x10, 0x00, 0, 0, 0xE1, 1, 1, 1, 0, 2] := by decide +kernel
theorem test_read_state_clear :
    (after (.readStateClear (ask [1])) { middle with cu := { middle.cu with refusals := 3 } }).cu.refusals = 0 := by decide +kernel
theorem test_read_roster :
    reply (after (.readRoster (ask [1, 2, 1])) middle) = [0x11, 0x00, 1, 3, 2, 3, 0, 0, 0xE1, 1, 2, 2] := by decide +kernel
theorem test_read_capture : reply (after (.readCapture (ask [])) middle) = [0x12, 0x00] ++ List.replicate 72 0 := by decide +kernel
theorem test_read_overtaken :
    let t := after (.readOvertaken (ask []))
      { middle with eqm := { middle.eqm with overtaken := [{ key := key, port := .b, count := 2 }], overflow := true } }
    t.eqm.overtaken = [] ∧ t.eqm.overflow = false ∧ reply t = [0x13, 0x00, 1, 1, 0, 0, 0xE1, 3, 1, 5, 2, 2] := by decide +kernel
theorem test_rule_read :
    reply (after (.ruleRead (ask [15])) middle)
      = [0x14, 0x00, 15, 0, 0, 0, 1, 0, 0x14] ++ List.replicate 36 0 ++ [1, 2, 1] := by decide +kernel
theorem test_rule_write :
    let image : List Byte := [1, 2, 7, 0x09, 0, 20, 0, 1, 0, 0x20] ++ (List.replicate 32 0).set 5 0x14
    let t := after (.ruleWrite (ask (0 :: image))) middle
    reply t = [0x30, 0x00, 0] ∧ (t.cm.rules[0]?.map Rule.image) = some image
      ∧ (t.cm.classify .a (frame .message 0x0302 3 [])).cls = .c2 := by decide +kernel
theorem test_hold : reply (after (.hold (ask [0x0A])) middle) = [0x31, 0x00, 0x0A, 0x0A] := by decide +kernel
theorem test_release :
    reply (after (.release (ask [0x08])) { middle with eqm := { middle.eqm with hold := { c1 := true, c2 := false, c3 := true } } })
      = [0x32, 0x00, 0x02, 0x02] := by decide +kernel
/-- R167: a released class begins at an idle port at once, before the answer. -/
theorem test_release_begins :
    let m := entry (frame .message 0x0302 2 []) none
    let held : State := { middle with eqm := { middle.eqm with hold := { c1 := false, c2 := true, c3 := false }, freeCells := 767
                                                               portC := { PortQueues.empty with c2 := [m] } } }
    let t := after (.release (ask [0x04])) held
    t.eqm.portC.tx.map (fun x => x.item) = some (.queued .c2 m) ∧ t.eqm.portC.c0.length = 1 := by decide +kernel
/-- The example of 10 section 10.9: fade time 100. -/
theorem test_set_timing :
    let t := after (.setTiming (ask [2, 0, 100])) middle
    t.cu.timing = { Timing.default with fadeTime := 100 } ∧ reply t = [0x33, 0x00, 0, 60] := by decide +kernel
theorem test_set_class :
    let t := after (.setClass (ask [1, 2])) middle
    t.cm.policy1 = .reroute ∧ reply t = [0x34, 0x00, 1] := by decide +kernel
theorem test_unknown_command :
    let t := after (.unknownCommand 0x7F (ask [])) middle
    t.cu.refusals = 1 ∧ reply t = [0x7F, 0x22] := by decide +kernel

/-! ## The queue -/

theorem test_step_takes_front_command :
    step { named with pending := [.presenceAssertion .b, .wakeInNegation] }
      = .next { after (.presenceAssertion .b) named with pending := [.wakeInNegation] } := by rfl
/-- An idle part takes the expiry that is due before a microsecond passes, and without one lets the microsecond pass. -/
theorem test_idle_step :
    step confirmed = .next (after .stagingTimerExpiry confirmed) ∧ step middle = .next middle.tick := ⟨by rfl, by rfl⟩
theorem test_no_word_spells_a_command : named.withFetchWord 32 0 = named := by decide +kernel

/-! ## Witnesses: every hypothesis of a statement is met -/

/-- A request of the own equipment for the own identity passes the common tests of every command. -/
theorem passes_of_own_request (s : State) (c : Command) (r : Request) (h1 : s.power = .active) (h2 : s.cu.loaded = true)
    (h3 : r.target = s.cu.identity) (h4 : r.target ≠ targetAll) (h5 : r.port = .c) : s.passes c r :=
  ⟨⟨h1, Or.inl ⟨h2, h3⟩⟩, fun h => absurd h h4, fun _ => h5, Or.inl h2, fun _ => Or.inl h5, fun _ => Or.inl h5⟩

/-- The requests of the tests pass in `middle` and in the states that differ from it elsewhere. -/
theorem passes_ask (s : State) (c : Command) (l : List Byte) (h1 : s.power = .active) (h2 : s.cu = named.cu) : s.passes c (ask l) :=
  passes_of_own_request s c (ask l) h1 (by rw [h2]; rfl) (by rw [h2]; rfl) (by decide : (0xE101 : Word) ≠ targetAll) rfl

theorem enacts_nothing (s : State) (g : Half) (h : s.su.staging = .empty) : s.enactsNothing g := by
  intro b r hb
  rw [h] at hb
  cases hb

/-- Nothing waits at the idle ports of a state whose queues and link-control slots are empty, whatever its other fields. -/
theorem served_of_still (s : State) (h : ∀ p c, s.eqm.queue p c = []) (h' : ∀ e, (s.clm e).slot = { greet := false, rouse := false }) :
    s.served := by
  have hq : ∀ p l, s.queuePick p l = none := by
    intro p l
    induction l with
    | nil => rfl
    | cons c l ih => simp [State.queuePick, h, ih]
  have hs : ∀ p, s.slotPick p = none := by
    intro p
    unfold State.slotPick
    split
    · rfl
    · simp [h']
  intro p _
  unfold State.pick
  split
  · rfl
  · simp [hs, hq]

/-- The premise `served` of the command statements: each state of the witnesses below has it, and so has every state that differs from
one of them in other fields than queues and slots. -/
theorem witness_served :
    (∀ s ∈ [State.reset, named, middle, changed, cut, last, asleep, filling, confirming 0, confirmed], s.served)
      ∧ (∀ c : Clm, c.slot = { greet := false, rouse := false } → ({ named with clmB := c } : State).served
          ∧ ({ named with clmA := c } : State).served)
      ∧ ∀ (n : Nat) (h : ClassSet), ({ middle with eqm := { middle.eqm with freeCells := n, hold := h } } : State).served := by
  refine ⟨?_, fun c h => ⟨?_, ?_⟩, fun n h => ?_⟩
  · simp only [List.forall_mem_cons, List.not_mem_nil, false_implies, implies_true, and_true]
    refine ⟨?_, ?_, ?_, ?_, ?_, ?_, ?_, ?_, ?_, ?_⟩
    all_goals exact served_of_still _ (fun p c => by cases p <;> cases c <;> rfl) (fun e => by cases e <;> rfl)
  · exact served_of_still _ (fun p c => by cases p <;> cases c <;> rfl) (fun e => by cases e; rfl; exact h)
  · exact served_of_still _ (fun p c => by cases p <;> cases c <;> rfl) (fun e => by cases e; exact h; rfl)
  · exact served_of_still _ (fun p c => by cases p <;> cases c <;> rfl) (fun e => by cases e <;> rfl)

/-- StepRunsFrontCommand, IdleStepTicksClockAndTimers: a command waiting; none waiting, with no moment due, one, and two. -/
theorem witness_queue :
    ({ named with pending := [.wakeInNegation] } : State).pending = .wakeInNegation :: [] ∧ named.pending = []
      ∧ named.moments = [] ∧ confirmed.moments = [.stagingTimerExpiry] ∧ cut.moments = [.noticeTimerExpiry]
      ∧ ({ cut with su := confirmed.su } : State).moments = [.noticeTimerExpiry, .stagingTimerExpiry]
      ∧ (after (.sleep (ask [])) middle).moments = [.transmissionStart .c] := by decide +kernel

/-- ResetsRestorePowerOnValues, with a presence asserted and one negated. -/
theorem witness_resets :
    cut.passes .restart (ask []) ∧ (ask []).params = [] ∧ cut.lines.presenceA = true ∧ cut.lines.presenceB = false :=
  ⟨passes_ask _ _ _ rfl rfl, rfl, rfl, rfl⟩

/-- FramesReadBackWhole: the shortest and the longest frame. -/
theorem witness_frames :
    (frame .bulk 0 0 []).payload.length ≤ 1000 ∧ (frame .bulk 0 0 (List.replicate 1000 0)).payload.length ≤ 1000
      ∧ parseFrame (frame .bulk 0 0 []).wire = some (frame .bulk 0 0 []) := by decide +kernel

/-- PresenceChangesMoveLinks, PresenceNegationInJoinedFades: each level with each link state, the identity loaded or not. -/
theorem witness_presence (l : LinkState) (v w : Bool) :
    let s := { named with clmA := linkIn l, lines := { named.lines with presenceA := v }, cu := { named.cu with loaded := w } }
    s.presence .a = v ∧ (s.clm .a).link = l ∧ s.cu.loaded = w := ⟨rfl, rfl, rfl⟩

/-- WakeInWakesDormantPart: each level in each power state. -/
theorem witness_wake_in (v : Bool) (p : Power) :
    let s := { asleep with lines := { asleep.lines with wakeIn := v }, power := p }
    s.lines.wakeIn = v ∧ s.power = p := ⟨rfl, rfl⟩

/-- RouseMatchWakesAndCaptures: a match with the capture empty, for ALL and for the own identity; a match with it occupied; no
match. -/
theorem witness_rouse :
    let own := frame .rouse 0 0 (List.replicate 8 0x5A ++ (List.replicate 6 (Word.bytes 0xE101)).flatten)
    let held := { asleep with rouse := { capture := some { bytes := [], length := 52, arrival := .b, clock := 0 }, wakeFlag := true } }
    asleep.power = .dormant ∧ RouseMatches asleep rouseAll.wire ∧ RouseMatches asleep own.wire ∧ asleep.rouse.capture = none
      ∧ held.power = .dormant ∧ held.rouse.capture ≠ none ∧ ¬ RouseMatches asleep [] ∧ named.power = .active := by
  have h1 : parseFrame rouseAll.wire = some rouseAll := by decide +kernel
  have h2 : ∀ x ∈ [frame .rouse 0 0 (List.replicate 8 0x5A ++ (List.replicate 6 (Word.bytes 0xE101)).flatten)],
      parseFrame x.wire = some x := by decide +kernel
  refine ⟨rfl, ⟨rouseAll, targetAll, h1, by decide +kernel⟩, ⟨_, 0xE101, h2 _ (List.mem_singleton.2 rfl), by decide +kernel⟩, rfl,
    rfl, by decide, ?_, rfl⟩
  rintro ⟨f, w, h, _⟩
  exact absurd h (by simp [parseFrame, lengthsAgree])

/-- FaultyArrivalsAreCounted: 19 and 1,021 bytes, and each fixed body one byte short. -/
theorem witness_faulty_arrivals :
    FailsChecks (List.replicate 19 0) ∧ FailsChecks (List.replicate 1021 0) ∧ named.power = .active
      ∧ (∀ x ∈ [(Kind.greet, 11), (.notice, 27), (.mgmtReq, 7), (.mgmtRsp, 11), (.rouse, 32), (.greet, 12)],
          let f := frame x.1 0 0 (List.replicate x.2 0)
          parseFrame f.wire = some f ∧ f.payload.length = x.2) := by
  refine ⟨Or.inl (by decide), Or.inr (Or.inl (by decide +kernel)), rfl, by decide +kernel⟩

/-- GreetReceiptInEveryLinkState: `naming` in every link state; from the recorded neighbour and not; a GREET that names another
part; and the sender identities 0 and FFFFFFFFh. -/
theorem witness_greets :
    (∀ l, ({ named with clmB := linkIn l } : State).power = .active ∧ (({ named with clmB := linkIn l } : State).clm .b).link = l)
      ∧ parseFrame naming.wire = some naming ∧ naming.payload.length = 12
      ∧ wordAt naming.payload 0 = 0x2002 ∧ wordAt naming.payload 7 = named.cu.identity ∧ byteAt naming.payload 11 = End.code .b
      ∧ ({ named with clmB := joinedTo 0x2002 1 } : State).clmB.neighbour.map (fun n => (n.identity, n.endCode)) = some (0x2002, 1)
      ∧ wordAt naming.payload 7 ≠ ({ named with cu := { named.cu with identity := 1 } } : State).cu.identity
      ∧ (∀ w ∈ [0x00#8, 0xFF], let f := frame .greet 0 0 (List.replicate 12 w)
          parseFrame f.wire = some f ∧ (wordAt f.payload 0 = 0 ∨ wordAt f.payload 0 = 0xFFFFFFFF)) := by
  refine ⟨fun l => ⟨rfl, rfl⟩, ?_⟩
  decide +kernel

/-- LossOfLinkPurgesItsPort, LinkChangeRecomputesJudgements: JOINED and FADING; an end that leaves MATCHED and one that stays. -/
theorem witness_losses :
    (middle.clm .b).link = .joined ∧ (({ middle with clmB := linkIn .fading } : State).clm .b).link = .fading
      ∧ middle.ru.standing .b = .matched ∧ middle.linkChange.ru.standing .a = .matched
      ∧ ({ middle with clmB := linkIn .greeting } : State).linkChange.ru.standing .b ≠ .matched
      ∧ ({ middle with clmB := joinedTo 0x2002 1 } : State).linkChange.ru.standing .b = .foreign := by decide +kernel

/-- DataFrameGenerationHandling: active generation at a MATCHED and at another end; an unknown generation; the prior generation with
a frame that is translated, at both kinds of end, and one that is not. -/
theorem witness_generations :
    let f := frame .message 0x0301 3 []
    let stray := { frame .message 0x0301 4 [] with srcId := 5 }
    middle.enactsNothing 0x0302 ∧ changed.enactsNothing 0x0301
      ∧ (∀ x ∈ [frame .message 0x0301 3 [], frame .message 0x0302 3 [], frame .message 0x0303 3 []], parseFrame x.wire = some x)
      ∧ middle.ru.standing .a = .matched ∧ cut.ru.standing .b ≠ .matched
      ∧ middle.ru.prior = none ∧ changed.ru.active.generation = 0x0302
      ∧ changed.ru.prior = some { records := unit3Before, generation := 0x0301 }
      ∧ Translates unit3Before unit3 0x0302 f { f with dstPos := 1, srcPos := 1, generation := 0x0302 }
      ∧ ¬ ∃ f', Translates unit3Before unit3 0x0302 stray f' := by
  refine ⟨enacts_nothing _ _ rfl, enacts_nothing _ _ rfl, by decide +kernel, rfl, by decide, rfl, rfl, rfl,
    ⟨car 0xE103 1 false, 1, by decide +kernel, Or.inr ⟨car 0xE103 3 false, car 0xE103 1 false, by decide +kernel⟩, rfl⟩, ?_⟩
  rintro ⟨f', own, d, h, _⟩
  have hn : recordOf unit3 5 = none := by decide
  exact absurd (hn.symm.trans h) (by simp)

/-- DataFramePathChoice: every position around the own one in `middle`, from each port, with the hop limit 0 and not; the ends MATCHED
and not; no roster; a rule that discards. -/
theorem witness_paths :
    let all : Rule := { Rule.reset with enabled := true, kindMessage := true, portA := true, discard := true }
    (∃ own, recordOf middle.ru.active.records middle.ownId = some own ∧ own.position = 2 ∧ leadEnd own.orientation = .a
        ∧ tailEnd own.orientation = .b ∧ middle.ru.active.records.length = 3)
      ∧ (∀ e, middle.ru.standing e = .matched) ∧ cut.ru.standing .b ≠ .matched ∧ cut.ru.active = middle.ru.active
      ∧ named.ru.active.records = []
      ∧ (middle.cm.classify .a (frame .message 0x0302 3 [])).discard = false
      ∧ (middle.cm.classify .a (frame .message 0x0302 3 [])).localCopy = false
      ∧ (({ middle.cm with rules := [all] } : ClassMatcher).classify .a (frame .message 0x0302 3 [])).discard = true
      ∧ (let o := ({ middle.cm with rules := [{ all with discard := false, localCopy := true }] } : ClassMatcher).classify .a
           (frame .message 0x0302 3 [])
         o.discard = false ∧ o.localCopy = true)
      ∧ recordOf named.ru.active.records named.ownId = none
      ∧ (∀ d ∈ [(0 : Byte), 1, 2, 3, 4], (frame .message 0x0302 d []).dstPos = d ∧ (frame .message 0x0302 d []).dstDev ≠ 0
          ∧ ({ frame .message 0x0302 d [] with hop := 0 } : Frame).hop = 0
          ∧ ({ frame .message 0x0302 d [] with dstDev := 0 } : Frame).dstDev = 0) := by
  refine ⟨⟨car 0xE101 2 true, by decide⟩, fun e => ?_, by decide, rfl, rfl, by decide, by decide, by decide, by decide, rfl, by decide⟩
  cases e <;> rfl

/-- PortCArrivalsAreStamped: each kind with its shortest body; a response for this car and for another; a request for another, for this
car, with target 0, and for ALL (an ENACT, a RELEASE and a HOLD). -/
theorem witness_port_c :
    middle.power = .active
      ∧ (∀ x ∈ [(Kind.process, 0), (.mgmtRsp, 12), (.notice, 28), (.mgmtReq, 8)],
          let f := frame x.1 0 0 (List.replicate x.2 5)
          parseFrame f.wire = some f ∧ wordAt f.payload 0 ≠ middle.cu.identity)
      ∧ (let f := frame .mgmtRsp 0 0 (Word.bytes 0xE101 ++ List.replicate 8 0)
         parseFrame f.wire = some f ∧ wordAt f.payload 0 = middle.cu.identity)
      ∧ (∀ x ∈ [([0, 0, 0xE1, 1], (0xE101 : Word), (0x31 : Byte)), ([0, 0, 0, 0], 0, 0x31), ([0xFF, 0xFF, 0xFF, 0xFF], targetAll, 0x31),
            ([0xFF, 0xFF, 0xFF, 0xFF], targetAll, 0x24), ([0xFF, 0xFF, 0xFF, 0xFF], targetAll, 0x32)],
          let f := frame .mgmtReq 0 0 (x.1 ++ [0, 9, x.2.2, 0])
          parseFrame f.wire = some f ∧ wordAt f.payload 0 = x.2.1 ∧ byteAt f.payload 6 = x.2.2)
      ∧ wordAt (List.replicate 8 5) 0 ≠ 0 ∧ wordAt (List.replicate 8 5) 0 ≠ targetAll
      ∧ (middle.clm .b).link.isJoined = true ∧ (cut.clm .b).link.isJoined = false
      ∧ ({ frame .notice 0x0302 0 [] with hop := 0 } : Frame).hop = 0 := by decide +kernel

/-- FirstMatchingRuleClassifies: a rule that matches behind one that does not, and a table without a match. -/
theorem witness_rules :
    let hit : Rule := { Rule.reset with enabled := true, kindMessage := true, portA := true, mask := 1, values := [0x02] }
    hit.minLength ≤ (frame .message 0x0302 3 []).payload.length + 20
      ∧ byteAt (frame .message 0x0302 3 []).header 0 = byteAt hit.values 0
      ∧ Rule.reset.enabled = false ∧ [Rule.reset, hit][1]? = some hit ∧ hit ∈ [Rule.reset, hit]
      ∧ (∀ r ∈ middle.cm.rules, r.enabled = false) := by decide +kernel

/-- ControlFramesOfCouplerPorts: requests for this car, for ALL (also an ENACT and a RELEASE) and for another; responses for this car and another; a
notice that leaves authority and one that changes it; a link that takes copies and one that does not, the hop limit 0 and not. -/
theorem witness_control :
    middle.enactsNothing 0x0302 ∧ middle.cu.loaded = true
      ∧ (∀ x ∈ [([0, 0, 0xE1, 1], (0xE101 : Word)), ([0xFF, 0xFF, 0xFF, 0xFF], targetAll), ([0, 0, 0, 5], 5)],
          let q := frame .mgmtReq 0x0302 0 (x.1 ++ [0, 9, 0x31, 0])
          let a := frame .mgmtRsp 0x0302 0 (x.1 ++ List.replicate 8 0)
          parseFrame q.wire = some q ∧ parseFrame a.wire = some a ∧ wordAt q.payload 0 = x.2 ∧ wordAt a.payload 0 = x.2
            ∧ byteAt q.payload 6 ≠ 0x24 ∧ byteAt q.payload 6 ≠ 0x32)
      ∧ (let f := frame .notice 0x0302 0 (List.replicate 28 0)
         parseFrame f.wire = some f ∧ (middle.interpret f).ru.authority = middle.ru.authority)
      ∧ (∀ c ∈ [(0x24 : Byte), 0x32],
          let f := frame .mgmtReq 0x0302 0 ([0xFF, 0xFF, 0xFF, 0xFF] ++ [0, 9, c, 0])
          parseFrame f.wire = some f ∧ wordAt f.payload 0 = targetAll ∧ byteAt f.payload 6 = c)
      ∧ (let f := frame .notice 0x0302 0 (List.replicate 28 0)
         (last.interpret f).ru.authority ≠ last.ru.authority ∧ last.power = .active ∧ last.su.staging = .empty)
      ∧ (middle.clm (End.other .a)).link.isJoined = true ∧ (cut.clm (End.other .a)).link.isJoined = false
      ∧ ({ frame .notice 0x0302 0 [] with hop := 0 } : Frame).hop = 0 := by
  refine ⟨enacts_nothing _ _ rfl, ?_⟩
  decide +kernel

/-- NoticeReportsCutMap: a notice of the master by its tail-facing neighbour's car that reports the adjacency between two other cars. -/
theorem witness_notice :
    let s : State := { middle with cu := { middle.cu with identity := 0xE103 } }
    let f := { frame .notice 0x0302 0 (List.replicate 28 0) with srcId := 0xE102 }
    f.generation = s.ru.active.generation ∧ recordOf s.ru.active.records f.srcId = some (car 0xE102 3 false) ∧ f.srcId ≠ s.ownId
      ∧ s.ownPos = 1 ∧ (s.interpret f).ru.cutMap = [2]
      ∧ (let u : State := { s with ru := { s.ru with cutMap := [2] } }; (u.interpret f).ru.cutMap = u.ru.cutMap)
      ∧ recordOf middle.ru.active.records 5 = none ∧ (frame .notice 0x0301 0 []).generation ≠ middle.ru.active.generation := by
  decide +kernel

/-- EnactCommandAndArrivalEnact, EnactmentSwapsRosters: a CONFIRMED staging, its ENACT, one of another generation, one of a sender
without authority, one in FILLING, and a frame that bears its generation; with an empty roster and with one; with standings that stay
and that change. -/
theorem witness_enact :
    confirmed.su.staging = .confirmed staged record ∧ confirmed.passes .enact (ask [3, 3]) ∧ (ask [3, 3]).params.length = 2
      ∧ halfAt (ask [3, 3]).params 0 = record.generation ∧ (ask [3, 3]).port = .c
      ∧ parseFrame (frame .message 0x0303 2 []).wire = some (frame .message 0x0303 2 [])
      ∧ Kind.fixedBody .message ≤ (frame .message 0x0303 2 []).payload.length
      ∧ confirmed.ru.active.records ≠ [] ∧ named.ru.active.records = []
      ∧ (∀ e, (confirmed.enactment staged record).ru.standing e = confirmed.ru.standing e)
      ∧ (confirmed.enactment staged record).ru.authority = confirmed.ru.authority
      ∧ (named.enactment staged record).ru.standing .a ≠ named.ru.standing .a
      ∧ halfAt (ask [3, 4]).params 0 ≠ record.generation ∧ (∀ b c, filling.su.staging ≠ .confirmed b c)
      ∧ filling.passes .enact (ask [3, 3]) ∧ confirmed.passes .enact (request .a 0xE102 [3, 3]) := by
  refine ⟨rfl, passes_ask _ _ _ rfl rfl, by decide, by decide, by decide, by decide +kernel, by decide, by decide, by decide,
    fun e => ?_, by decide +kernel, by decide +kernel, by decide, fun b c h => ?_, passes_ask _ _ _ rfl rfl, ?_⟩
  · cases e <;> decide +kernel
  · cases h
  · exact ⟨⟨rfl, Or.inl ⟨rfl, rfl⟩⟩, fun h => absurd h (by decide), fun h => absurd h (by decide), Or.inl rfl,
      fun _ => Or.inr (by decide), fun h => absurd h (by decide)⟩

/-- ReevaluationLeavesOnlyServableFrames: both policies, an end MATCHED and one that is not; a translation that keeps its port, one
that moves to the other end, one that no port is chosen for, a train-wide one and a flagged one; no prior roster. -/
theorem witness_reevaluation :
    let away : Entry := { entry (frame .message 0x0301 2 []) none with ingress := .port .c }
    let w : Walk := { eqm := changed.eqm, kept := [], lost := [] }
    cut.cm.policy .c1 = .flush ∧ cut.cm.policy .c2 = .reroute ∧ cut.ru.standing .a = .matched ∧ cut.ru.standing .b ≠ .matched
      ∧ cut.ru.prior = none ∧ changed.ru.prior = some { records := unit3Before, generation := 0x0301 }
      ∧ (changed.evaluate .b .c2 w away).kept.map (fun x => x.frame.dstPos) = [3]
      ∧ (changed.evaluate .a .c2 w away).eqm.portB.c2.length = 1
      ∧ (changed.evaluate .b .c2 w { away with ingress := .port .b }).lost.map (fun x => x.reason) = [.noPath]
      ∧ (changed.evaluate .b .c2 w { away with frame := frame .message 0x0301 9 [] }).lost.map (fun x => x.reason) = [.stranded]
      ∧ (changed.evaluate .b .c2 w { away with frame := frame .message 0x0301 0 [] }).kept.length = 1
      ∧ (changed.evaluate .c .c2 w { away with localCopy := true }).kept.length = 1
      ∧ (changed.evaluate .a .c2 w { away with frame := { away.frame with hop := 0 } }).lost.map (fun x => x.reason) = [.hopExhausted]
      ∧ (let k : Entry := { away with key := some key }
         let q : Eqm := { changed.eqm with portB := { PortQueues.empty with c1 := [k] } }
         let r := changed.evaluate .a .c2 { w with eqm := q } k
         r.lost.map (fun x => x.reason) = [.overtakenReroute] ∧ r.eqm.overtaken = [{ key := key, port := .b, count := 1 }])
      ∧ (let q : Eqm := { changed.eqm with portB := { PortQueues.empty with c2 := List.replicate 32 away } }
         (changed.evaluate .a .c2 { w with eqm := q } away).lost.map (fun x => x.reason) = [.queueFull])
      ∧ (let k (n : Half) : Entry := { away with key := some { key with publication := n } }
         let q : Eqm := { changed.eqm with portB := { PortQueues.empty with c3 := List.replicate 64 (k 1) } }
         (changed.evaluate .a .c2 { w with eqm := q } (k 2)).lost.map (fun x => x.reason) = [.slotExhausted]) := by decide +kernel

/-- SettleFadeAndRouseExpiries, GreetExpiries: each timer due and not, each count one below its limit and at it. -/
theorem witness_link_timers :
    let settling := { linkIn .settling with settle := some 0 }
    let fading := { linkIn .fading with fade := some 0, greet := some 0 }
    let mute := { linkIn .mute with rouse := some 0, greet := some 0 }
    let greeting := { linkIn .greeting with greet := some 0 }
    settling.settle = some 0 ∧ fading.fade = some 0 ∧ mute.rouse = some 0 ∧ greeting.greet = some 0 ∧ fading.greet = some 0
      ∧ mute.greet = some 0 ∧ Clm.powerOn.settle ≠ some 0 ∧ Clm.powerOn.fade ≠ some 0 ∧ Clm.powerOn.rouse ≠ some 0
      ∧ middle.clmB.greet ≠ some 0
      ∧ named.cu.timing.rouseBurst ≤ 19 + 1 ∧ 18 + 1 < named.cu.timing.rouseBurst
      ∧ named.cu.timing.answerLimit ≤ 24 + 1 ∧ 23 + 1 < named.cu.timing.answerLimit
      ∧ named.cu.timing.silenceLimit ≤ ({ fading with silenceCount := 4 } : Clm).silenceAfter
      ∧ ({ fading with silenceCount := 3 } : Clm).silenceAfter < named.cu.timing.silenceLimit
      ∧ fading.link.isJoined = true ∧ mute.link.isJoined = false := by decide

/-- NoticeTimerExpiryRepeatsNotice: stopped; due while unsettled and while settled. -/
theorem witness_notice_timer :
    middle.ng.timer ≠ some 0 ∧ cut.ng.timer = some 0 ∧ cut.ng.settled = false
      ∧ ({ middle with ng := { settled := true, timer := some 0 } } : State).ng.settled = true := by decide

/-- TransmissionTakesFirstEligibleItem, CompletionReturnsCells: a port that sends, an idle one, a DORMANT part; slot and queue. -/
theorem witness_transmission :
    let m := entry (frame .message 0x0302 3 []) none
    let sending (x : TxItem) : State :=
      { middle with eqm := { middle.eqm with portB := { PortQueues.empty with tx := some { item := x, bytes := [] } } } }
    let waiting : State := { middle with eqm := { middle.eqm with portB := { PortQueues.empty with c2 := [m] } } }
    let slotted (l : LinkSlot) : State := { waiting with clmB := { waiting.clmB with slot := l } }
    ((sending .greet).eqm.port .b).tx = some { item := .greet, bytes := [] }
      ∧ ((sending (.queued .c2 m)).eqm.port .b).tx = some { item := .queued .c2 m, bytes := [] } ∧ m.sleepResponse = false
      ∧ ({ m with sleepResponse := true } : Entry).sleepResponse = true
      ∧ asleep.power = .dormant ∧ (waiting.eqm.port .b).tx = none ∧ waiting.power = .active
      ∧ ((slotted { greet := true, rouse := true }).clm .b).slot.rouse = true
      ∧ ((slotted { greet := true, rouse := false }).clm .b).slot.rouse = false
      ∧ ((slotted { greet := true, rouse := false }).clm .b).slot.greet = true
      ∧ (waiting.clm .b).slot.greet = false ∧ (waiting.clm .b).slot.rouse = false
      ∧ waiting.portJoined .b = true ∧ waiting.portMatched .b = true ∧ waiting.eqm.hold.mem .c2 = false
      ∧ waiting.eqm.queue .b .c2 = [m] ∧ waiting.eqm.queue .b .c0 = [] ∧ waiting.eqm.queue .b .c1 = []
      ∧ (∀ c, middle.eqm.queue .b c = []) ∧ (∀ x, (sending x).served)
      ∧ (waiting.eqm.port .b).tx = none ∧ waiting.pick .b = some (.front .c2 m) ∧ (middle.eqm.port .b).tx = none := by
  refine ⟨rfl, rfl, rfl, rfl, rfl, rfl, rfl, rfl, rfl, rfl, rfl, rfl, rfl, rfl, rfl, rfl, rfl, rfl, fun c => ?_, fun x => ?_, rfl,
    by decide +kernel, rfl⟩
  · cases c <;> rfl
  · exact served_of_still _ (fun p c => by cases p <;> cases c <;> rfl) (fun e => by cases e <;> rfl)

/-- AdmissionTestsInOrder: each test passed and failed at its limit. -/
theorem witness_admission :
    let x := entry (frame .message 0x0302 3 []) none
    let k := entry (frame .process 0x0302 3 []) (some key)
    let filled (n free : Nat) : Eqm := { middle.eqm with freeCells := free, portB := { PortQueues.empty with c2 := List.replicate n x } }
    let slots (n : Nat) : PortQueues := { PortQueues.empty with c3 := List.replicate n { k with key := some { key with publication := 1 } } }
    (∀ y, x.key = some y → middle.eqm.keyFree .b y) ∧ middle.eqm.keyFree .b key
      ∧ cut.portJoined .b = false
      ∧ ({ middle with ru := { middle.ru with standingB := .foreign } } : State).portMatched .b = false
      ∧ middle.portJoined .b = true ∧ middle.portMatched .b = true ∧ x.frame.kind.isData = true
      ∧ ((filled 32 768).queue .b .c2).length = 32 ∧ ((filled 31 97).queue .b .c2).length < 32
      ∧ (filled 31 96).freeCells < 1 + 96 ∧ 1 + 96 ≤ (filled 31 97).freeCells
      ∧ ((slots 64).entries.filter (fun y => y.key.isSome)).length = 64
      ∧ ((slots 63).entries.filter (fun y => y.key.isSome)).length < 64 ∧ k.key ≠ none := by
  refine ⟨fun y h => absurd h (by simp [entry]), fun c x h => ?_, ?_⟩
  · cases c <;> exact absurd h (List.not_mem_nil)
  · decide +kernel

/-- CyclicCopyIsReplaced: an old copy in the class of the new one and in another; cells enough and one too few; the report empty, full
and with the key. -/
theorem witness_replacement :
    let old := entry (frame .process 0x0302 3 []) (some key)
    let new := entry (frame .process 0x0302 3 (List.replicate 109 0)) (some key)
    let s (n : Nat) : State :=
      { middle with eqm := { middle.eqm with freeCells := n, portB := { PortQueues.empty with c1 := [old] } } }
    (∀ n, (s n).portJoined .b = true ∧ (s n).portMatched .b = true ∧ (s n).eqm.queue .b .c1 = [] ++ old :: []
        ∧ ((s n).eqm.setQueue .b .c1 ([] ++ [])).keyFree .b key)
      ∧ old.key = some key ∧ new.key = some key ∧ old.cells = 1 ∧ new.cells = 2
      ∧ new.cells + 0 ≤ (s 1).eqm.freeCells + old.cells ∧ (s 0).eqm.freeCells + old.cells < new.cells + 0
      ∧ new.cells + 96 ≤ (s 97).eqm.freeCells + old.cells ∧ (s 96).eqm.freeCells + old.cells < new.cells + 96
      ∧ ((s 97).eqm.queue .b .c2).length < Cls.limit .c2
      ∧ Cls.limit .c2 ≤ (({ (s 97).eqm with portB := { PortQueues.empty with c1 := [old], c2 := List.replicate 32 new } } : Eqm).queue .b .c2).length
      ∧ middle.eqm.overtaken.length < 16
      ∧ 16 ≤ (List.replicate 16 ({ key := key, port := .a, count := 1 } : OvertakenEntry)).length := by
  refine ⟨fun n => ⟨rfl, rfl, rfl, fun c x h => ?_⟩, ?_⟩
  · cases c <;> exact absurd h (List.not_mem_nil)
  · decide +kernel

/-- FoldCompletions, StagingTimerExpiryEmptiesStaging: each job, none, a finish that agrees and one that does not. -/
theorem witness_folds :
    (∃ w l, ({ filling with su := { filling.su with job := .blockFold 0 [] } } : State).su.job = .blockFold w l)
      ∧ filling.su.staging = .filling staged ∧ (∀ w l, middle.su.job ≠ .blockFold w l) ∧ (∀ w l, middle.su.job ≠ .finish w l)
      ∧ (∀ x, (confirming x).su.job = .finish (foldContext unit3) (trailer 0x0303 3)
          ∧ (confirming x).su.staging = .confirming staged (ticket x) ∧ (confirming x).su.timer = some 0)
      ∧ crcFold (foldContext unit3) (trailer 0x0303 3) = (ticket (rosterCheckWord unit3 0x0303 3)).expected
      ∧ crcFold (foldContext unit3) (trailer 0x0303 3) ≠ (ticket 0).expected
      ∧ middle.su.timer ≠ some 0 ∧ filling.su.timer = some 0 ∧ (∀ b t, filling.su.staging ≠ .confirming b t) := by
  refine ⟨⟨0, [], rfl⟩, rfl, ?_, ?_, fun x => ⟨rfl, rfl, rfl⟩, by decide +kernel, by decide +kernel, by decide, rfl, ?_⟩
  all_goals
    intros
    intro h
    cases h

/-- GraceExpiryDropsPriorRoster: `changed` with its timer due and not, and a frame of the prior generation with its translation. -/
theorem witness_grace :
    let f := frame .message 0x0301 3 []
    let f' := { f with dstPos := 1, srcPos := 1, generation := 0x0302 }
    let due : State := { changed with ru := { changed.ru with grace := some 0 } }
    due.ru.grace = some 0 ∧ changed.ru.grace ≠ some 0 ∧ due.power = .active ∧ due.ru.prior = changed.ru.prior
      ∧ parseFrame f.wire = some f ∧ parseFrame f'.wire = some f'
      ∧ f.kind.isData = true ∧ due.enactsNothing f.generation ∧ due.enactsNothing f'.generation
      ∧ f.generation = 0x0301 ∧ due.ru.active.generation ≠ 0x0301 := by
  refine ⟨rfl, by decide, rfl, rfl, by decide +kernel, by decide +kernel, rfl, enacts_nothing _ _ rfl, enacts_nothing _ _ rfl,
    rfl, by decide⟩

/-- The command statements whose only hypotheses are the common tests and a parameter field: SetIdentityLoadsOnce (also in a part
without identity), SleepIsAnsweredThenTaken, ReleaseWakeEmptiesCapture, ResetRuleTable, ReadStateReturnsAndClears,
ReadCaptureReturnsCapture, ReadsOfRosterReportAndRules, RuleWriteAndSetClass, HoldAndRelease, SetTimingSetsOneParameter. -/
theorem witness_passes (c : Command) (l : List Byte) : middle.passes c (ask l) ∧ (ask l).params = l :=
  ⟨passes_ask _ _ _ rfl rfl, rfl⟩
theorem witness_set_identity :
    State.reset.passes .setIdentity { ask [0, 0, 0xE1, 1] with target := 0 } ∧ ¬ badParams .setIdentity [0, 0, 0xE1, 1]
      ∧ State.reset.cu.loaded = false ∧ middle.cu.loaded = true := by
  refine ⟨⟨⟨rfl, Or.inr (Or.inl ⟨rfl, rfl⟩)⟩, fun h => absurd h (by decide), fun _ => rfl, Or.inr (Or.inl (by decide)),
    fun _ => Or.inl rfl, fun _ => Or.inl rfl⟩, ?_, rfl, rfl⟩
  simp only [badParams]
  decide
theorem witness_sleep :
    let pending := { middle with cu := { middle.cu with sleepPending := true } }
    let full := { middle with eqm := { middle.eqm with freeCells := 0 } }
    pending.passes .sleep (ask []) ∧ middle.cu.sleepPending = false
      ∧ ((middle.eqm.queue .c .c0).length < 8 ∧ 1 ≤ middle.eqm.freeCells) ∧ full.passes .sleep (ask [])
      ∧ ¬ ((full.eqm.queue .c .c0).length < 8 ∧ 1 ≤ full.eqm.freeCells) :=
  ⟨passes_of_own_request _ _ _ rfl rfl rfl (by decide) rfl, rfl, by decide, passes_ask _ _ _ rfl rfl, by decide⟩
theorem witness_settings :
    ¬ badParams .ruleWrite ([15, 1, 2, 7, 1, 0, 20, 0, 0, 0, 0] ++ List.replicate 32 0)
      ∧ (∀ b ∈ [(0 : Byte), 0x0E], b &&& 0xF1#8 = 0)
      ∧ (∀ v ∈ [5, 500], Parameter.low .fadeTime ≤ (halfAt (0x02 :: natHalf v) 1).toNat
          ∧ (halfAt (0x02 :: natHalf v) 1).toNat ≤ Parameter.high .fadeTime)
      ∧ parameterOfCode 0x02 = some .fadeTime ∧ parameterOfCode 0x03 = some .greetPeriod
      ∧ (∀ v ∈ [5, 200], Parameter.low .greetPeriod ≤ (halfAt (0x03 :: natHalf v) 1).toNat
          ∧ (halfAt (0x03 :: natHalf v) 1).toNat ≤ Parameter.high .greetPeriod)
      ∧ middle.clmB.greet = some 20000 ∧ named.clmB.greet = none
      ∧ ({ middle with clmB := { middle.clmB with greet := some 0 } } : State).clmB.greet = some 0
      ∧ middle.cm.rules[(15 : Byte).toNat]? = some Rule.reset := by
  refine ⟨?_, by decide, by decide, by decide, by decide, by decide, by decide, by decide, by decide, by decide⟩
  simp only [badParams]
  decide
/-- SetTimingSetsOneParameter: a part whose greet timers run, one with an expiry that is due. The greet period 50 restarts the other, and
the expiry then occurs and starts its timer with the new period (R189). -/
theorem witness_greet_period :
    let s : State := { middle with clmB := { middle.clmB with greet := some 0 } }
    let t := after (.setTiming (ask [3, 0, 50])) s
    let u := after (.greetExpiry .b) t
    s.served ∧ s.passes .setTiming (ask [3, 0, 50]) ∧ s.clmA.greet = some 20000
      ∧ t.clmA.greet = some 50000 ∧ t.clmB.greet = some 0
      ∧ u.clmB.greet = some 50000 ∧ u.clmB.slot.greet = true ∧ u.clmA = t.clmA :=
  ⟨served_of_still _ (fun p c => by cases p <;> cases c <;> rfl) (fun e => by cases e <;> rfl), passes_ask _ _ _ rfl rfl, rfl,
    by decide +kernel, by decide +kernel, by decide +kernel, by decide +kernel, by decide +kernel⟩
theorem witness_capture :
    let c : RouseCapture := { bytes := rouseAll.wire, length := 52, arrival := .a, clock := 0 }
    c.bytes.length = min 64 c.length
      ∧ ({ middle with rouse := { capture := some c, wakeFlag := true } } : State).rouse.capture = some c := by decide +kernel

/-- LoadBeginFreshOpensStaging, LoadBeginExtendCopiesActiveRoster, DiscardEmptiesStaging: each staging state, the owner and another
sender, an empty roster, and a sender of a coupler port without authority. -/
theorem witness_staging_commands :
    let other := request .a 0xE102 []
    middle.su.staging = .empty ∧ filling.su.staging.body? = some staged ∧ staged.owner = Request.sender (ask [])
      ∧ staged.owner ≠ Request.sender other ∧ middle.passes .loadBegin { other with params := [2] }
      ∧ filling.passes .loadBegin { other with params := [2] } ∧ filling.passes .discard other
      ∧ middle.ru.active.records ≠ [] ∧ named.ru.active.records = [] ∧ named.passes .loadBegin (ask [2])
      ∧ other.port ≠ .c ∧ middle.ru.authority ≠ .orphaned ∧ ¬ middle.sentByMaster other
      ∧ (confirming 0).su.staging = .confirming staged (ticket 0) := by
  refine ⟨rfl, rfl, rfl, by decide, ?_, ?_, ?_, by decide, rfl, passes_ask _ _ _ rfl rfl, by decide, by decide, ?_, rfl⟩
  · exact ⟨⟨rfl, Or.inl ⟨rfl, rfl⟩⟩, fun h => absurd h (by decide), fun h => absurd h (by decide), Or.inl rfl,
      fun _ => Or.inr (by decide), fun h => absurd h (by decide)⟩
  · exact ⟨⟨rfl, Or.inl ⟨rfl, rfl⟩⟩, fun h => absurd h (by decide), fun h => absurd h (by decide), Or.inl rfl,
      fun _ => Or.inr (by decide), fun h => absurd h (by decide)⟩
  · exact ⟨⟨rfl, Or.inl ⟨rfl, rfl⟩⟩, fun h => absurd h (by decide), fun h => absurd h (by decide), Or.inl rfl,
      fun _ => Or.inr (by decide), fun h => absurd h (by decide)⟩
  · simp only [State.sentByMaster]
    decide

/-- LoadRecordsAppendsBlock: one record behind the three staged; and each test of R93 failed. -/
theorem witness_load_records :
    let images : List Byte := [0, 0, 0xE1, 4, 4, 1]
    filling.su.staging = .filling staged ∧ staged.owner = Request.sender (ask (1 :: images)) ∧ filling.su.job = .idle
      ∧ images.length = 6 * (1 : Byte).toNat ∧ staged.records.length + (1 : Byte).toNat ≤ 24
      ∧ (recordAt images 0).position = staged.records.length + 1 + 0 ∧ (recordAt images 0).identity = 0xE104
      ∧ byteAt images 5 &&& 0xFC#8 = 0 ∧ (∀ x ∈ staged.records, x.identity ≠ (recordAt images 0).identity)
      ∧ staged.owner ≠ Request.sender (request .a 0xE102 [])
      ∧ ({ filling with su := { filling.su with job := .blockFold 0 [] } } : State).su.job ≠ .idle
      ∧ 24 < (List.replicate 24 (car 1 1 false)).length + (1 : Byte).toNat
      ∧ (recordAt [0, 0, 0xE1, 4, 9, 1] 0).position ≠ staged.records.length + 1 + 0 := by decide +kernel

/-- ConfirmStartsFinish: the staged roster under a new generation; and tests 4 to 8 of R96 failed. -/
theorem witness_confirm :
    let p : List Byte := [3, 3, 3, 1, 2, 3, 4]
    p.length = 7 ∧ filling.su.staging = .filling staged ∧ filling.su.job = .idle ∧ (byteAt p 2).toNat = staged.records.length
      ∧ halfAt p 0 ≠ 0 ∧ halfAt p 0 ≠ filling.ru.active.generation ∧ (staged.records.filter (fun x => x.master)).length = 1
      ∧ (∃ x ∈ staged.records, x.identity = filling.ownId)
      ∧ (∃ x ∈ staged.records, masterIdentity filling.ru.active.records = some x.identity)
      ∧ (byteAt [3, 3, 2] 2).toNat ≠ staged.records.length ∧ halfAt [3, 2, 3] 0 = filling.ru.active.generation
      ∧ ([car 0xE101 1 false].filter (fun x => x.master)).length ≠ 1 ∧ (¬ ∃ x ∈ [car 0xE102 1 true], x.identity = filling.ownId)
      ∧ filling.ru.authority = .governed ∧ masterIdentity filling.ru.active.records ≠ some 5 := by decide +kernel

/-- CommonTestsInOrder, BadParametersAreRefused: a request that fails each test of R172 and passes those before it. -/
theorem witness_common_tests :
    (0x7F : Byte) ∉ definedCodes ∧ middle.hands (ask []) ∧ ¬ middle.hands { ask [] with target := 5 }
      ∧ ¬ Request.passesTarget { ask [] with target := targetAll } .restart
      ∧ ¬ Request.passesPort (request .a 1 []) .sleep ∧ Request.passesTarget (request .a 1 []) .sleep
      ∧ ¬ State.reset.passesIdentity .restart ∧ ¬ Request.passesSender (request .a 0 []) .hold
      ∧ Request.passesSender (request .a 1 []) .hold ∧ ¬ middle.passesAuthority .hold (request .a 1 [])
      ∧ badParams .hold [1] ∧ middle.passes .hold (ask [1]) ∧ middle.cm.rules.length = 16 := by
  refine ⟨by decide, ⟨rfl, Or.inl ⟨rfl, rfl⟩⟩, ?_, fun h => absurd (h rfl) (by decide), fun h => absurd (h (by decide)) (by decide),
    fun h => absurd h (by decide), ?_, fun h => ?_, fun _ => Or.inr (by decide), fun h => ?_, ?_, passes_ask _ _ _ rfl rfl, rfl⟩
  · rintro ⟨_, h | h | h⟩
    · exact absurd h (by decide)
    · exact absurd h (by decide)
    · exact absurd h (by decide)
  · rintro (h | h | h)
    · exact absurd h (by decide)
    · exact absurd h (by decide)
    · exact absurd h (by decide)
  · exact absurd (h (Or.inl (by decide))) (by decide)
  · rcases h (by decide) with h | h | h | h
    · exact absurd h (by decide)
    · exact absurd h (by decide)
    · exact absurd h (by decide)
    · simp only [State.sentByMaster] at h
      exact absurd h (by decide)
  · rintro ⟨b, h, h'⟩
    obtain rfl : (1 : Byte) = b := by simpa using h
    exact absurd h' (by decide)

/-- ResponsesAreBuiltAndRouted: target ALL, port C, a coupler port, and a coupler port with this car as the sender. -/
theorem witness_responses :
    ({ ask [] with target := targetAll } : Request).target = targetAll ∧ (ask []).target ≠ targetAll ∧ (ask []).port = .c
      ∧ (request .a 0xE101 []).port ≠ .c ∧ (request .a 0xE101 []).source = middle.cu.identity ∧ middle.cu.loaded = true
      ∧ (request .a 5 []).source ≠ middle.cu.identity := by decide

/-- The StepKeeps statements: the idle step of `middle` and of `asleep` starts from a state that has the invariants. -/
theorem witness_invariants :
    CellsConserved middle ∧ QueuesBounded middle ∧ SlotsSound middle ∧ OvertakenSound middle ∧ CouplerQueues middle
      ∧ DormantQuiet middle ∧ WakeLatched middle ∧ SleepCarried middle ∧ RulesSound middle ∧ Judged middle ∧ IdentityGuards middle ∧ CutMapSound middle
      ∧ RostersSound confirmed ∧ LinksSound middle ∧ CountsInRange middle ∧ DormantQuiet asleep ∧ asleep.power = .dormant
      ∧ ∃ t, step middle = .next t := by
  refine ⟨by simp only [CellsConserved]; decide +kernel, fun p c => ?_, fun p => ?_, ⟨by decide, by decide, by decide⟩, fun e => ?_,
    ⟨fun h => absurd h (by decide), fun e h => ?_⟩, rfl, ⟨by decide, fun p c x h => ?_, rfl, rfl⟩, ⟨rfl, by decide⟩,
    ⟨fun e => ?_, by decide, by decide⟩, fun h => absurd h (by decide), ⟨by decide, by decide, fun e x h => ?_⟩,
    ⟨fun h => absurd h (by decide +kernel), ⟨by decide +kernel, Or.inr ?_⟩, ⟨rfl, fun p h => ?_⟩, ?_⟩, fun e => ?_, ⟨fun x => ?_, fun e => ?_⟩,
    ⟨fun _ => ⟨fun e => ?_, rfl, fun p => ?_, rfl, rfl, rfl, rfl, rfl⟩, fun _ _ => rfl⟩, rfl, _, rfl⟩
  · cases p <;> cases c <;> decide
  · cases p <;> exact ⟨by decide, by decide⟩
  · cases e <;> exact ⟨fun h => absurd h (by decide), fun h => absurd h (by decide)⟩
  · cases e <;> exact absurd h (by decide)
  · cases p <;> cases c <;> exact absurd h (List.not_mem_nil)
  · cases e <;> decide
  · cases e <;> simp [middle, RosterUnit.standing, RosterUnit.powerOn]
  · simp only [RosterFit, RecordsSound]
    decide +kernel
  · cases h
  · refine ⟨rfl, rfl, by decide +kernel, rfl, rfl, rfl, by decide +kernel, ?_, by decide +kernel⟩
    simp only [RosterFit, RecordsSound]
    decide +kernel
  · cases e <;> exact ⟨by simp only [Clm.Sound]; decide, rfl, rfl⟩
  · cases x <;> decide
  · cases e <;> decide
  · cases e <;> rfl
  · cases p <;> rfl

end Sys2Proof.Tests
end

