-- ==== Sys2Proof/Proofs/CouplerLinks.lean ====
section
/-! The presence negation in JOINED (R39). FADING serves what JOINED serves (R162), so the arbiter's choice stays. -/

namespace Sys2Proof.Machine

/-! ## What an arbiter reads of a link monitor: whether it is JOINED or FADING, whether it serves its slot, and the slot -/

/-- Two link monitors that an arbiter cannot tell apart (R161, R162). -/
structure Clm.SameService (c d : Clm) : Prop where
  isJoined : c.link.isJoined = d.link.isJoined
  servesSlot : c.link.servesSlot = d.link.servesSlot
  slot : c.slot = d.slot

section
variable {s : State} {e : End} {c : Clm}

theorem State.portJoined_setClm (h : c.SameService (s.clm e)) (p : Port) : (s.setClm e c).portJoined p = s.portJoined p := by
  cases e with
  | a =>
    cases p with
    | a => exact h.isJoined
    | b => rfl
    | c => rfl
  | b =>
    cases p with
    | a => rfl
    | b => exact h.isJoined
    | c => rfl

@[simp] theorem State.portMatched_setClm (s : State) (e : End) (c : Clm) (p : Port) :
    (s.setClm e c).portMatched p = s.portMatched p := by
  cases p <;> simp [State.portMatched]

theorem State.slotPick_setClm (h : c.SameService (s.clm e)) (p : Port) : (s.setClm e c).slotPick p = s.slotPick p := by
  cases hp : Port.end? p with
  | none => simp [State.slotPick, hp]
  | some e' =>
    by_cases he : e' = e
    · subst he
      simp [State.slotPick, hp, h.servesSlot, h.slot]
    · simp [State.slotPick, hp, State.clm_setClm_of_ne s c he]

theorem State.mayServe_setClm (h : c.SameService (s.clm e)) (p : Port) (k : Cls) :
    (s.setClm e c).mayServe p k = s.mayServe p k := by
  cases k <;> simp [State.mayServe, State.portJoined_setClm h]

theorem State.queuePick_setClm (h : c.SameService (s.clm e)) (p : Port) (l : List Cls) :
    (s.setClm e c).queuePick p l = s.queuePick p l := by
  induction l with
  | nil => rfl
  | cons k l ih => simp only [State.queuePick, State.mayServe_setClm h, State.setClm_eqm, ih]

/-- A change of a link monitor that keeps its service keeps what every port takes at a frame boundary. -/
theorem State.pick_setClm (h : c.SameService (s.clm e)) (p : Port) : (s.setClm e c).pick p = s.pick p := by
  simp only [State.pick, State.setClm_power, State.slotPick_setClm h, State.queuePick_setClm h]

end

/-- No arbiter reads the PRESENCE inputs. -/
@[simp] theorem State.pick_setPresence (s : State) (e : End) (v : Bool) (p : Port) : (s.setPresence e v).pick p = s.pick p :=
  State.pick_congr (by simp) (by simp) (by simp) (by simp) fun _ _ => by simp

/-! ## The presence negation -/

theorem exec_presenceNegation (e : End) (s : State) : exec (.presenceNegation e) s = execPresenceNegation e s := rfl

/-- R20: at an asserted level the negation is a change, and the link state decides what it does. -/
theorem exec_presenceNegation_of_asserted {e : End} {s : State} (hs : s.served) (hp : s.presence e = true) :
    exec (.presenceNegation e) s = .next ((s.setPresence e false).presenceNegated e) := by
  rw [exec_presenceNegation, execPresenceNegation, State.runs_of_served hs, if_pos hp]

/-- The link monitor at a presence negation in JOINED (R39). -/
def Clm.startFading (c : Clm) (t : Timing) : Clm := { c with link := .fading, fade := startMs t.fadeTime }

theorem State.presenceNegated_of_joined {s : State} {e : End} (h : (s.clm e).link = .joined) :
    s.presenceNegated e = s.setClm e ((s.clm e).startFading s.cu.timing) := by
  simp only [State.presenceNegated, h, Clm.startFading]

/-- FADING is served as JOINED is, slot and queues (R162). -/
theorem Clm.startFading_sameService {c : Clm} (t : Timing) (h : c.link = .joined) : (c.startFading t).SameService c where
  isJoined := by rw [h]; rfl
  servesSlot := by rw [h]; rfl
  slot := rfl

/-- Settles O8: the negation of a JOINED link is `Clm.startFading` on that link, which keeps the service of its port. -/
theorem presenceNegationInJoinedFades : Obligations.PresenceNegationInJoinedFades := by
  intro e s hs hp hl
  have hneg : (s.setPresence e false).presenceNegated e
      = (s.setPresence e false).setClm e ((s.clm e).startFading s.cu.timing) := by
    simpa using State.presenceNegated_of_joined (s := s.setPresence e false) (e := e) (by simpa using hl)
  have hservice : ((s.clm e).startFading s.cu.timing).SameService ((s.setPresence e false).clm e) := by
    simpa using Clm.startFading_sameService s.cu.timing hl
  refine ⟨_, exec_presenceNegation_of_asserted hs hp, hneg, ?_⟩
  rw [hneg, State.pick_setClm hservice, State.pick_setPresence]

end Sys2Proof.Machine
end

section
/-! LOAD-BEGIN in FRESH mode (R89, R90, R92). A request that passes the tests of R172 is run as its command; the owner test of R89 then
decides between the refusal and the new staging. -/

namespace Sys2Proof.Machine

/-! ## The common tests: the model's tests are those of R172 -/

theorem Command.acceptsAll_iff (c : Command) : c.acceptsAll = true ↔ c ∈ forAll := by cases c <;> decide
theorem Command.portCOnly_iff (c : Command) : c.portCOnly = true ↔ c ∈ portCCommands := by cases c <;> decide
theorem Command.isRead_iff (c : Command) : c.isRead = true ↔ c ∈ reads := by cases c <;> decide
theorem Command.isGoverning_iff (c : Command) : c.isGoverning = true ↔ c ∈ governing := by cases c <;> decide
theorem Command.isStaging_iff (c : Command) : c.isStaging = true ↔ c ∈ stagingCommands := by cases c <;> decide

theorem validIdentity_iff (w : Word) : validIdentity w = true ↔ w ≠ 0 ∧ w ≠ 0xFFFFFFFF := by simp [validIdentity]

/-- On a coupler port the sender is the source of the header (R171). -/
theorem Request.sender_of_coupler {r : Request} (h : r.port ≠ .c) : Request.sender r = r.source := by
  unfold Request.sender
  split
  · contradiction
  · rfl
  · rfl

theorem State.isMaster_iff (s : State) (r : Request) : s.isMaster (Request.sender r) = true ↔ s.sentByMaster r := by
  simp [State.isMaster, State.sentByMaster]

/-- R173. -/
theorem State.grants_iff (s : State) (r : Request) : s.grants r = true ↔ s.governs r := by
  simp [State.grants, State.governs, State.isMaster_iff, or_assoc]

/-- R79: the targets handed over are the own identity, 0 on port C, and ALL. -/
theorem State.hands_iff (s : State) (r : Request) : s.hands r ↔ s.power = .active ∧ s.isTarget r.port r.target = true := by
  simp [State.hands, State.isTarget, CommandUnit.isOwn, or_assoc]

/-- Tests 2 to 6 of R172, each by its own premise. -/
theorem State.commonRefusal_of_passes {s : State} {c : Command} {r : Request} (h : s.passes c r) :
    s.commonRefusal c r = none := by
  obtain ⟨-, htarget, hport, hidentity, hsender, hauthority⟩ := h
  rw [State.commonRefusal, if_neg, if_neg, if_neg, if_neg, if_neg]
  · rintro ⟨hc, hg⟩
    have hgrants : s.grants r = true := (s.grants_iff r).2 (hauthority (c.isGoverning_iff.1 hc))
    simp [hgrants] at hg
  · rintro ⟨hc, hp, hv⟩
    rcases hsender (hc.imp c.isGoverning_iff.1 c.isStaging_iff.1) with hp' | hvalid
    · exact hp hp'
    · simp [Request.sender_of_coupler hp, (validIdentity_iff r.source).2 hvalid] at hv
  · rintro ⟨hl, hp, hr⟩
    rcases hidentity with hl' | hp' | hr'
    · simp [hl'] at hl
    · simp [c.portCOnly_iff.2 hp'] at hp
    · simp [c.isRead_iff.2 hr'] at hr
  · rintro ⟨hc, hp⟩
    exact hp (hport (c.portCOnly_iff.1 hc))
  · rintro ⟨ht, hc⟩
    simp [c.acceptsAll_iff.2 (htarget ht)] at hc

/-- A request that reaches the command unit and passes the common tests runs its command (R172). -/
theorem State.request_of_passes {s : State} {c : Command} {r : Request} (h : s.passes c r) :
    s.request c r = s.runCommand c r := by
  rw [State.request, if_pos ((s.hands_iff r).1 h.1), State.handle, State.commonRefusal_of_passes h]

/-! ## The owner test and what a restart answers first -/

/-- R89 test 1: the staging is EMPTY, or the sender is its owner. -/
theorem Staging.openTo_iff (st : Staging) (w : Word) :
    st.openTo w = true ↔ st = .empty ∨ ∃ b, st.body? = some b ∧ b.owner = w := by
  cases st <;> simp [Staging.openTo, Staging.body?]

theorem Staging.openTo_of_body {st : Staging} {b : StagingBody} (h : st.body? = some b) (w : Word) :
    st.openTo w = (b.owner == w) := by
  simp only [Staging.openTo, h]

theorem Staging.ownerBytes_of_body {st : Staging} {b : StagingBody} (h : st.body? = some b) :
    st.ownerBytes = Word.bytes b.owner := by
  simp only [Staging.ownerBytes, h]

/-- R92: with no CONFIRM in progress a restart answers nothing. -/
theorem State.answerAbandoned_of_not_confirming {s : State} (h : ∀ b t, s.su.staging ≠ .confirming b t) :
    s.answerAbandoned = s := by
  cases hst : s.su.staging with
  | confirming b t => exact absurd hst (h b t)
  | empty | filling _ | confirmed _ _ => simp only [State.answerAbandoned, hst]

/-! ## LOAD-BEGIN in FRESH mode -/

theorem exec_loadBeginFresh (r : Request) (s : State) : exec (.loadBeginFresh r) s = execLoadBeginFresh r s := rfl

theorem exec_loadBeginFresh_of_passes {r : Request} {s : State} (hs : s.served) (hp : s.passes .loadBegin r) :
    exec (.loadBeginFresh r) s = .next (s.cmdLoadBegin r) := by
  rw [exec_loadBeginFresh, execLoadBeginFresh, State.runs_of_served hs, State.request_of_passes hp, State.runCommand]

/-- FRESH mode takes the owner test alone of the tests of R89. -/
theorem State.loadBeginRefusal_fresh (s : State) (r : Request) :
    s.loadBeginRefusal .fresh r
      = if s.su.staging.openTo (Request.sender r) = true then none else some (.stagingOwned, s.su.staging.ownerBytes) := by
  cases ho : s.su.staging.openTo (Request.sender r) <;> simp [State.loadBeginRefusal, ho]

theorem State.cmdLoadBegin_fresh_of_open {s : State} {r : Request} (hm : r.params = [0x01])
    (ho : s.su.staging.openTo (Request.sender r) = true) :
    s.cmdLoadBegin r = (s.beginStaging .fresh (Request.sender r)).respond r 0x20 .done [0, 1] := by
  have hmode : modeOfParams r.params = some .fresh := by rw [hm]; rfl
  simp only [State.cmdLoadBegin, hmode, State.loadBeginRefusal_fresh, if_pos ho]
  rfl

theorem State.cmdLoadBegin_fresh_of_owned {s : State} {r : Request} {b : StagingBody} (hm : r.params = [0x01])
    (hb : s.su.staging.body? = some b) (ho : b.owner ≠ Request.sender r) :
    s.cmdLoadBegin r = s.refuse r 0x20 .stagingOwned (Word.bytes b.owner) := by
  have hmode : modeOfParams r.params = some .fresh := by rw [hm]; rfl
  have hclosed : ¬ s.su.staging.openTo (Request.sender r) = true := by simpa [Staging.openTo_of_body hb] using ho
  simp only [State.cmdLoadBegin, hmode, State.loadBeginRefusal_fresh, if_neg hclosed, Staging.ownerBytes_of_body hb]
  rfl

/-- Settles O41, by the owner test of R89: where it passes `State.beginStaging` opens the staging, else the request is refused. -/
theorem loadBeginFreshOpensStaging : Obligations.LoadBeginFreshOpensStaging := by
  intro r s hs hp hm
  rw [exec_loadBeginFresh_of_passes hs hp]
  refine ⟨fun ho => ⟨?_, State.answerAbandoned_of_not_confirming⟩, fun b hb ho => ?_⟩
  · rw [State.cmdLoadBegin_fresh_of_open hm ((s.su.staging.openTo_iff _).2 ho)]
    rfl
  · rw [State.cmdLoadBegin_fresh_of_owned hm hb ho]
    rfl

end Sys2Proof.Machine
end

section
/-! The reset rules and the rule table (R138). Both resets set the table, and no rule of it matches. Of the commands, RULE-WRITE and a
taken RESTART alone write a rule; they run in an ACTIVE part and leave it ACTIVE, so entry to DORMANT and waking keep the table. -/

namespace Sys2Proof.Machine

/-! ## The reset table and what it classifies -/

theorem Rule.isMatch_of_disabled {x : Rule} (h : x.enabled = false) (p : Port) (f : Frame) : x.isMatch p f = false := by
  simp [Rule.isMatch, h]

/-- With no rule enabled the defaults of R146 are in force. -/
theorem ClassMatcher.classify_of_disabled {m : ClassMatcher} (h : ∀ x ∈ m.rules, x.enabled = false) (p : Port) (f : Frame) :
    m.classify p f = defaultOutcome f.kind := by
  have hnone : m.rules.find? (fun x => x.isMatch p f) = none :=
    List.find?_eq_none.2 fun x hx => by simp [Rule.isMatch_of_disabled (h x hx)]
  simp only [ClassMatcher.classify, hnone]

theorem ClassMatcher.classify_of_reset {m : ClassMatcher} (h : m.rules = List.replicate 16 Rule.reset) (p : Port) (f : Frame) :
    m.classify p f = defaultOutcome f.kind :=
  ClassMatcher.classify_of_disabled (fun x hx => by rw [h] at hx; rw [List.eq_of_mem_replicate hx]; rfl) p f

/-- R138: the image of the reset rule holds the class C1 and the minimum length 20; every other byte is 0. -/
theorem Rule.reset_image : Rule.reset.image = [0x00, 0x00, 0x00, 0x01, 0x00, 0x14] ++ List.replicate 36 0 := by decide

/-! ## The class matcher under the operations on links and power -/

@[simp] theorem State.settleIfReady_cm (s : State) (e : End) : (s.settleIfReady e).cm = s.cm := by
  unfold State.settleIfReady
  split
  · exact s.setClm_cm _ _
  · rfl

@[simp] theorem State.settleIfReady_power (s : State) (e : End) : (s.settleIfReady e).power = s.power := by
  unfold State.settleIfReady
  split
  · exact s.setClm_power _ _
  · rfl

@[simp] theorem State.enterDark_cm (s : State) (e : End) : (s.enterDark e).cm = s.cm := by simp [State.enterDark]

@[simp] theorem State.enterListen_cm (s : State) (e : End) : (s.enterListen e).cm = s.cm := by simp [State.enterListen]

@[simp] theorem State.loseToDark_cm (s : State) (e : End) (c : LossCause) : (s.loseToDark e c).cm = s.cm := by
  simp [State.loseToDark]

@[simp] theorem State.loseToGreeting_cm (s : State) (e : End) (c : LossCause) (x : Option Candidate) :
    (s.loseToGreeting e c x).cm = s.cm := by
  simp [State.loseToGreeting]

@[simp] theorem State.lose_cm (s : State) (e : End) (c : LossCause) (x : Option Candidate) : (s.lose e c x).cm = s.cm := by
  unfold State.lose
  split
  · exact s.loseToDark_cm e c
  · exact s.loseToGreeting_cm e c x

/-- Entry to DORMANT keeps the class matcher (R138). -/
@[simp] theorem State.enterDormant_cm (s : State) : s.enterDormant.cm = s.cm := by simp [State.enterDormant]

/-- Waking keeps the class matcher (R138). -/
@[simp] theorem State.wake_cm (s : State) : s.wake.cm = s.cm := by simp [State.wake]

@[simp] theorem State.completed_cm (s : State) (p : Port) : (s.completed p).cm = s.cm := by
  unfold State.completed
  split
  · rfl
  · dsimp only
    split
    · split
      · exact State.enterDormant_cm _
      · rfl
    · rfl
    · rfl

/-! ## The class matcher under the events of the links -/

@[simp] theorem State.presenceAsserted_cm (s : State) (e : End) : (s.presenceAsserted e).cm = s.cm := by
  unfold State.presenceAsserted
  split <;> simp

@[simp] theorem State.presenceNegated_cm (s : State) (e : End) : (s.presenceNegated e).cm = s.cm := by
  unfold State.presenceNegated
  split <;> simp

@[simp] theorem State.settleExpired_cm (s : State) (e : End) : (s.settleExpired e).cm = s.cm := by
  unfold State.settleExpired
  split <;> simp

@[simp] theorem State.greetInJoined_cm (s : State) (e : End) : (s.greetInJoined e).cm = s.cm := by
  simp only [State.greetInJoined]
  split <;> simp

@[simp] theorem State.greetExpired_cm (s : State) (e : End) : (s.greetExpired e).cm = s.cm := by
  simp only [State.greetExpired]
  split <;> simp

@[simp] theorem State.fadeExpired_cm (s : State) (e : End) : (s.fadeExpired e).cm = s.cm := by
  unfold State.fadeExpired
  split <;> simp

@[simp] theorem State.rouseExpired_cm (s : State) (e : End) : (s.rouseExpired e).cm = s.cm := by
  unfold State.rouseExpired
  split <;> simp

@[simp] theorem State.noticeExpired_cm (s : State) : s.noticeExpired.cm = s.cm := by
  simp only [State.noticeExpired]
  split <;> simp

@[simp] theorem State.validGreet_cm (s : State) (e : End) (g : GreetBody) : (s.validGreet e g).cm = s.cm := by
  simp only [State.validGreet]
  split
  case h_1 | h_3 | h_4 => split <;> simp
  all_goals simp

@[simp] theorem State.greetReceipt_cm (s : State) (e : End) (f : Frame) : (s.greetReceipt e f).cm = s.cm := by
  unfold State.greetReceipt
  split
  · rfl
  · split
    · rfl
    · exact s.validGreet_cm e _

@[simp] theorem State.rouseFilter_cm (s : State) (e : End) (b : List Byte) : (s.rouseFilter e b).cm = s.cm := by
  unfold State.rouseFilter
  split <;> simp

/-! ## The class matcher, and the power state, under an enactment -/

@[simp] theorem State.enactment_cm (s : State) (b : StagingBody) (r : ConfirmedRecord) : (s.enactment b r).cm = s.cm := by
  simp [State.enactment, State.reevaluate, State.swapRosters]

@[simp] theorem State.enactment_power (s : State) (b : StagingBody) (r : ConfirmedRecord) :
    (s.enactment b r).power = s.power := by
  simp [State.enactment, State.reevaluate, State.swapRosters]

@[simp] theorem State.enactConfirmed_cm (s : State) : s.enactConfirmed.cm = s.cm := by
  unfold State.enactConfirmed
  split <;> simp

@[simp] theorem State.implicitEnactment_cm (s : State) (f : Frame) : (s.implicitEnactment f).cm = s.cm := by
  unfold State.implicitEnactment
  split
  · split <;> simp
  all_goals rfl

@[simp] theorem State.implicitEnactment_power (s : State) (f : Frame) : (s.implicitEnactment f).power = s.power := by
  unfold State.implicitEnactment
  split
  · split <;> simp
  all_goals rfl

/-! ## The class matcher under the staging events -/

@[simp] theorem State.answerAbandoned_cm (s : State) : s.answerAbandoned.cm = s.cm := by
  unfold State.answerAbandoned
  split <;> simp [State.countRefusal]

@[simp] theorem State.beginStaging_cm (s : State) (m : Mode) (w : Word) : (s.beginStaging m w).cm = s.cm := by
  simp [State.beginStaging]

@[simp] theorem State.emptyStaging_cm (s : State) : s.emptyStaging.cm = s.cm := by simp [State.emptyStaging]

@[simp] theorem State.blockFoldDone_cm (s : State) : s.blockFoldDone.cm = s.cm := by
  unfold State.blockFoldDone
  split <;> rfl

@[simp] theorem State.finishWith_cm (s : State) (b : StagingBody) (t : ConfirmTicket) (w : Word) :
    (s.finishWith b t w).cm = s.cm := by
  unfold State.finishWith
  split <;> simp [State.countRefusal]

@[simp] theorem State.finishDone_cm (s : State) : s.finishDone.cm = s.cm := by
  unfold State.finishDone
  split
  · split <;> simp
  all_goals rfl

/-! ## The class matcher under the intake of data frames and notices -/

@[simp] theorem State.offerCopies_cm (s : State) (p : Port) (f : Frame) (o : ClassOutcome) (l : List Port) :
    (s.offerCopies p f o l).cm = s.cm := by
  induction l generalizing s with
  | nil => rfl
  | cons q l ih => simp [State.offerCopies, ih]

@[simp] theorem State.routeData_cm (s : State) (p : Port) (f : Frame) : (s.routeData p f).cm = s.cm := by
  simp only [State.routeData]
  split
  · rfl
  · split <;> simp

@[simp] theorem State.foreignCheck_cm (s : State) (e : End) (f : Frame) : (s.foreignCheck e f).cm = s.cm := by
  unfold State.foreignCheck
  split <;> simp

@[simp] theorem State.judgeGeneration_cm (s : State) (e : End) (f : Frame) : (s.judgeGeneration e f).cm = s.cm := by
  unfold State.judgeGeneration
  split
  · exact s.foreignCheck_cm e f
  · split
    · rfl
    · split
      · split <;> simp
      · rfl

@[simp] theorem State.interpret_cm (s : State) (f : Frame) : (s.interpret f).cm = s.cm := by
  unfold State.interpret
  split <;> rfl

@[simp] theorem State.forwardNotice_cm (s : State) (p : Port) (f : Frame) : (s.forwardNotice p f).cm = s.cm := by
  simp only [State.forwardNotice]
  split <;> simp

@[simp] theorem State.receiveNotice_cm (s : State) (p : Port) (f : Frame) : (s.receiveNotice p f).cm = s.cm := by
  simp only [State.receiveNotice]
  split
  · simp
  · split <;> simp

/-! ## The rule table under the commands: RULE-WRITE and RESTART alone write a rule -/

section
variable (s : State) (r : Request)

theorem State.cmdSetIdentity_cm : (s.cmdSetIdentity r).cm = s.cm := by
  unfold State.cmdSetIdentity
  split
  · simp
  · split <;> simp

theorem State.cmdSleep_cm : (s.cmdSleep r).cm = s.cm := by
  simp only [State.cmdSleep]
  split
  · simp
  · split
    · simp
    · split <;> simp

theorem State.cmdReleaseWake_cm : (s.cmdReleaseWake r).cm = s.cm := by
  unfold State.cmdReleaseWake
  split <;> simp

theorem State.cmdReadState_cm : (s.cmdReadState r).cm = s.cm := by
  unfold State.cmdReadState
  split
  · simp
  · split <;> simp [State.clearTallies]

theorem State.cmdReadRoster_cm : (s.cmdReadRoster r).cm = s.cm := by
  unfold State.cmdReadRoster
  split
  · split
    · simp
    · split <;> simp
  · simp

theorem State.cmdReadCapture_cm : (s.cmdReadCapture r).cm = s.cm := by
  unfold State.cmdReadCapture
  split <;> simp

theorem State.cmdReadOvertaken_cm : (s.cmdReadOvertaken r).cm = s.cm := by
  unfold State.cmdReadOvertaken
  split <;> simp

theorem State.cmdRuleRead_cm : (s.cmdRuleRead r).cm = s.cm := by
  unfold State.cmdRuleRead
  split
  · split <;> simp
  · simp

theorem State.cmdLoadBegin_cm : (s.cmdLoadBegin r).cm = s.cm := by
  unfold State.cmdLoadBegin
  split
  · simp
  · split <;> simp

theorem State.cmdLoadRecords_cm : (s.cmdLoadRecords r).cm = s.cm := by
  unfold State.cmdLoadRecords
  split
  · simp
  · split
    · dsimp only
      split <;> simp
    all_goals simp

theorem State.cmdConfirm_cm : (s.cmdConfirm r).cm = s.cm := by
  unfold State.cmdConfirm
  split
  · simp
  · split
    · dsimp only
      split <;> simp
    all_goals simp

theorem State.cmdDiscard_cm : (s.cmdDiscard r).cm = s.cm := by
  unfold State.cmdDiscard
  split
  · simp
  · split <;> simp

theorem State.cmdEnact_cm : (s.cmdEnact r).cm = s.cm := by
  unfold State.cmdEnact
  split <;> simp

theorem State.cmdHold_cm : (s.cmdHold r).cm = s.cm := by
  unfold State.cmdHold
  split <;> simp

theorem State.cmdRelease_cm : (s.cmdRelease r).cm = s.cm := by
  unfold State.cmdRelease
  split <;> simp

@[simp] theorem State.setTiming_cm (p : Parameter) (v : Nat) : (s.setTiming p v).cm = s.cm := by
  simp only [State.setTiming]
  split <;> rfl

theorem State.cmdSetTiming_cm : (s.cmdSetTiming r).cm = s.cm := by
  unfold State.cmdSetTiming
  split
  · dsimp only
    split <;> simp
  · simp

@[simp] theorem ClassMatcher.setPolicy_rules (m : ClassMatcher) (p : Policy) (c : DataClass) :
    (m.setPolicy p c).rules = m.rules := by
  cases c <;> rfl

/-- SET-CLASS writes a policy and no rule (R150). -/
theorem State.cmdSetClass_rules : (s.cmdSetClass r).cm.rules = s.cm.rules := by
  unfold State.cmdSetClass
  split
  · split <;> simp
  · simp

/-- RULE-WRITE is answered and leaves the power state (R147). -/
theorem State.cmdRuleWrite_power : (s.cmdRuleWrite r).power = s.power := by
  unfold State.cmdRuleWrite
  split
  · simp
  · split <;> simp

/-- RESTART leaves a part ACTIVE, refused or taken (R180). -/
theorem State.cmdRestart_power (h : s.power = .active) : (s.cmdRestart r).power = .active := by
  unfold State.cmdRestart
  split
  · simpa using h
  · simp [State.restarted]

end

/-! ## A command changes the rule table only from ACTIVE to ACTIVE -/

/-- What every command but power-on reset does to the rule table: it keeps it, or it is taken in ACTIVE and leaves the part ACTIVE. -/
def State.RulesChangeOnlyActive (s t : State) : Prop := t.cm.rules = s.cm.rules ∨ (s.power = .active ∧ t.power = .active)

theorem State.RulesChangeOnlyActive.of_cm {s t : State} (h : t.cm = s.cm) : s.RulesChangeOnlyActive t := .inl (by rw [h])

/-- What keeps the matcher and the power state may come first. -/
theorem State.RulesChangeOnlyActive.after {s u t : State} (h : u.RulesChangeOnlyActive t) (hcm : u.cm = s.cm)
    (hp : u.power = s.power) : s.RulesChangeOnlyActive t := by
  rwa [State.RulesChangeOnlyActive, hcm, hp] at h

/-- What keeps the matcher and the power state may come last. -/
theorem State.RulesChangeOnlyActive.before {s u t : State} (h : s.RulesChangeOnlyActive u) (hcm : t.cm = u.cm)
    (hp : t.power = u.power) : s.RulesChangeOnlyActive t := by
  rwa [State.RulesChangeOnlyActive, ← hcm, ← hp] at h

section
variable {s : State}

theorem State.runCommand_rules (hs : s.power = .active) (c : Command) (r : Request) :
    s.RulesChangeOnlyActive (s.runCommand c r) := by
  cases c with
  | setIdentity => exact .of_cm (s.cmdSetIdentity_cm r)
  | sleep => exact .of_cm (s.cmdSleep_cm r)
  | releaseWake => exact .of_cm (s.cmdReleaseWake_cm r)
  | restart => exact .inr ⟨hs, s.cmdRestart_power r hs⟩
  | readState => exact .of_cm (s.cmdReadState_cm r)
  | readRoster => exact .of_cm (s.cmdReadRoster_cm r)
  | readCapture => exact .of_cm (s.cmdReadCapture_cm r)
  | readOvertaken => exact .of_cm (s.cmdReadOvertaken_cm r)
  | ruleRead => exact .of_cm (s.cmdRuleRead_cm r)
  | loadBegin => exact .of_cm (s.cmdLoadBegin_cm r)
  | loadRecords => exact .of_cm (s.cmdLoadRecords_cm r)
  | confirm => exact .of_cm (s.cmdConfirm_cm r)
  | discard => exact .of_cm (s.cmdDiscard_cm r)
  | enact => exact .of_cm (s.cmdEnact_cm r)
  | ruleWrite => exact .inr ⟨hs, (s.cmdRuleWrite_power r).trans hs⟩
  | hold => exact .of_cm (s.cmdHold_cm r)
  | release => exact .of_cm (s.cmdRelease_cm r)
  | setTiming => exact .of_cm (s.cmdSetTiming_cm r)
  | setClass => exact .inl (s.cmdSetClass_rules r)

theorem State.handle_rules (hs : s.power = .active) (c : Command) (r : Request) : s.RulesChangeOnlyActive (s.handle c r) := by
  unfold State.handle
  split
  · exact .of_cm (by simp)
  · exact State.runCommand_rules hs c r

theorem State.handleCode_rules (hs : s.power = .active) (k : Byte) (r : Request) :
    s.RulesChangeOnlyActive (s.handleCode k r) := by
  unfold State.handleCode
  split
  · exact State.handle_rules hs _ r
  · exact .of_cm (by simp)

/-- A request reaches the command unit of an ACTIVE part alone (R171). -/
theorem State.request_rules (s : State) (c : Command) (r : Request) : s.RulesChangeOnlyActive (s.request c r) := by
  unfold State.request
  split
  case isTrue h => exact State.handle_rules h.1 c r
  case isFalse => exact .of_cm rfl

theorem State.flood_handleCode_rules (hs : s.power = .active) (i : Ingress) (f : Frame) (k : Byte) (r : Request) :
    s.RulesChangeOnlyActive ((s.flood i f).handleCode k r) :=
  (State.handleCode_rules (by simpa using hs) k r).after (by simp) (by simp)

theorem State.handleCode_flood_rules (hs : s.power = .active) (i : Ingress) (f : Frame) (k : Byte) (r : Request) :
    s.RulesChangeOnlyActive ((s.handleCode k r).flood i f) :=
  (State.handleCode_rules hs k r).before (by simp) (by simp)

/-- The choice counter moves where the order of the hand-over and the flooding is open (log 8). -/
theorem State.receiveRequest_rules (hs : s.power = .active) (p : Port) (f : Frame) :
    s.RulesChangeOnlyActive (s.receiveRequest p f) := by
  simp only [State.receiveRequest]
  split
  · split
    · have hu : ({ s with free := s.free + 1 } : State).power = .active := hs
      refine .after (u := { s with free := s.free + 1 }) ?_ rfl rfl
      split
      · exact State.flood_handleCode_rules hu _ f _ _
      · exact State.handleCode_flood_rules hu _ f _ _
    · exact State.handleCode_flood_rules hs _ f _ _
  · split
    · exact State.handleCode_rules hs _ _
    · exact .of_cm (by simp)

theorem State.routeControl_rules (hs : s.power = .active) (p : Port) (f : Frame) :
    s.RulesChangeOnlyActive (s.routeControl p f) := by
  unfold State.routeControl
  split
  · exact State.receiveRequest_rules hs p f
  · exact .of_cm (by simp)
  · exact .of_cm (s.receiveNotice_cm p f)
  all_goals exact .of_cm rfl

theorem State.afterDispatch_rules (hs : s.power = .active) (e : End) (f : Frame) :
    s.RulesChangeOnlyActive (s.afterDispatch e f) := by
  simp only [State.afterDispatch]
  split
  · exact .of_cm (by simp)
  · exact (State.routeControl_rules (by simpa using hs) _ f).after (by simp) (by simp)

theorem State.dispatch_rules (hs : s.power = .active) (e : End) (f : Frame) : s.RulesChangeOnlyActive (s.dispatch e f) := by
  unfold State.dispatch
  split
  case h_1 => exact .of_cm (s.greetReceipt_cm e f)
  case h_2 => exact .of_cm rfl
  case h_3 | h_4 | h_5 => exact State.afterDispatch_rules hs e f
  all_goals
    split
    · exact .of_cm rfl
    · exact State.afterDispatch_rules hs e f

theorem State.intakeCoupler_rules (hs : s.power = .active) (e : End) (b : List Byte) :
    s.RulesChangeOnlyActive (s.intakeCoupler e b) := by
  unfold State.intakeCoupler
  split
  · exact .of_cm rfl
  · exact State.dispatch_rules hs e _

theorem State.intakeC_rules (hs : s.power = .active) (b : List Byte) : s.RulesChangeOnlyActive (s.intakeC b) := by
  unfold State.intakeC
  split
  · exact .of_cm rfl
  · split
    · exact .of_cm rfl
    · split
      · exact .of_cm (by simp)
      · exact State.routeControl_rules hs _ _

end

/-- An effect that keeps the matcher keeps it under a guard. -/
theorem State.RulesChangeOnlyActive.of_guarded {s t : State} {P : Prop} [Decidable P] (h : t.cm = s.cm) :
    s.RulesChangeOnlyActive (if P then t else s) := by
  split
  · exact .of_cm h
  · exact .of_cm rfl

/-- The starts that are due come before a command and change neither the table nor the power state. -/
theorem State.RulesChangeOnlyActive.of_begun {s t : State} (h : s.begun.RulesChangeOnlyActive t) : s.RulesChangeOnlyActive t :=
  h.after (by simp) (by simp)

/-- No command but power-on reset writes a rule of a part that is DORMANT before or after it (R138). -/
theorem exec_rules {i : Instr} {s t : State} (h : exec i s = .next t) (hi : i ≠ .powerOnReset) : s.RulesChangeOnlyActive t := by
  cases i <;> cases h
  case powerOnReset => exact absurd rfl hi
  case transmissionStart p => exact .of_cm (by simp)
  all_goals
    refine .of_begun ?_
    generalize s.begun = u
    dsimp only
  case presenceAssertion e =>
    split
    · exact .of_cm rfl
    · exact .of_cm (by simp)
  case presenceNegation e => exact .of_guarded (by simp)
  case wakeInAssertion =>
    split
    · exact .of_cm rfl
    · split
      · exact .of_cm (by simp)
      · exact .of_cm rfl
  case wakeInNegation => exact .of_cm rfl
  case arrivalOnCouplerPort e b =>
    split
    case h_1 hu => exact State.intakeCoupler_rules hu e b
    case h_2 => exact .of_cm (u.rouseFilter_cm e b)
  case arrivalOnPortC b =>
    split
    case h_1 hu => exact State.intakeC_rules hu b
    case h_2 => exact .of_cm rfl
  case dormantArrival e b =>
    split
    case h_1 => exact .of_cm (u.rouseFilter_cm e b)
    case h_2 hu => exact State.intakeCoupler_rules hu e b
  case settleExpiry e => exact .of_guarded (u.settleExpired_cm e)
  case greetExpiry e => exact .of_guarded (u.greetExpired_cm e)
  case answerLimitReached e => exact .of_guarded (u.greetExpired_cm e)
  case silenceLimitReached e => exact .of_guarded (u.greetExpired_cm e)
  case fadeExpiry e => exact .of_guarded (u.fadeExpired_cm e)
  case rouseExpiry e => exact .of_guarded (u.rouseExpired_cm e)
  case rouseBurstReached e => exact .of_guarded (u.rouseExpired_cm e)
  case noticeTimerExpiry => exact .of_guarded u.noticeExpired_cm
  case transmissionCompletion p => exact .of_guarded (u.completed_cm p)
  case blockFoldCompletion => exact .of_cm u.blockFoldDone_cm
  case finishCompletion => exact .of_cm u.finishDone_cm
  case stagingTimerExpiry => exact .of_guarded u.emptyStaging_cm
  case graceTimerExpiry => exact .of_guarded rfl
  case unknownCommand k r =>
    split
    case isTrue hu => exact State.handleCode_rules hu.1 k r
    case isFalse => exact .of_cm rfl
  all_goals exact u.request_rules _ _

/-! ## The resets -/

theorem exec_powerOnReset (s : State) : exec .powerOnReset s = .next s.poweredOn := rfl

theorem State.poweredOn_rules (s : State) : s.poweredOn.cm.rules = List.replicate 16 Rule.reset := rfl

theorem State.poweredOn_power (s : State) : s.poweredOn.power = .active := rfl

theorem State.restarted_rules (s : State) : s.restarted.cm.rules = List.replicate 16 Rule.reset := by
  simp only [State.restarted, State.settleIfReady_cm]
  rfl

/-- The starts that are due change nothing that the common tests read (R172). -/
theorem State.passes_begun {s : State} {c : Command} {r : Request} (h : s.passes c r) : s.begun.passes c r := by
  simpa [State.passes, State.hands, State.passesIdentity, State.passesAuthority, State.governs, State.sentByMaster] using h

/-- A RESTART that is taken (R180). -/
theorem exec_restart_of_passes {s : State} {r : Request} (h : s.passes .restart r) (hr : r.params = []) :
    exec (.restart r) s = .next s.begun.restarted := by
  have hrun : s.begun.request .restart r = s.begun.restarted := by
    rw [State.request_of_passes (State.passes_begun h), State.runCommand, State.cmdRestart, if_neg (not_not_intro hr)]
  rw [← hrun]
  rfl

/-- Settles O37: the resets write `Rule.reset`, which matches nothing, and `exec_rules` leaves an entry to DORMANT or a waking no
way to write a rule. -/
theorem resetRuleTable : Obligations.ResetRuleTable := by
  refine ⟨fun s => ⟨_, exec_powerOnReset s, s.poweredOn_rules⟩,
    fun s r hp hr => ⟨_, exec_restart_of_passes hp hr, s.begun.restarted_rules⟩, Rule.reset_image, fun m p f hm => ?_,
    fun i s t h _ ht => ?_, fun i s t h hs _ hi => ?_⟩
  · rw [ClassMatcher.classify_of_reset hm]
    exact ⟨fun hk => by rw [hk]; rfl, fun hk => by rw [hk]; rfl, fun hk => by rw [hk]; rfl⟩
  · have hi : i ≠ .powerOnReset := by
      rintro rfl
      cases h
      simp [State.poweredOn_power] at ht
    rcases exec_rules h hi with hrules | ⟨-, hactive⟩
    · exact hrules
    · simp [hactive] at ht
  · rcases exec_rules h hi with hrules | ⟨hactive, -⟩
    · exact hrules
    · simp [hactive] at hs

end Sys2Proof.Machine
end

section
/-! The read of the rouse capture (R185): where each field of the 72 bytes stands, and that a response keeps the capture. -/

namespace Sys2Proof.Machine

/-! ## Values written as bytes, and what a reader finds at their offset -/

theorem halfAt_bytes (h : Half) : halfAt (Half.bytes h) 0 = h :=
  (BitVec.extractLsb'_append_extractLsb'_eq_extractLsb' rfl).trans
    BitVec.extractLsb'_eq_self

theorem wordAt_bytes (w : Word) : wordAt (Word.bytes w) 0 = w := by
  have hhigh : halfAt (Word.bytes w) 0 = w.extractLsb' 16 16 := BitVec.extractLsb'_append_extractLsb'_eq_extractLsb' rfl
  have hlow : halfAt (Word.bytes w) 2 = w.extractLsb' 0 16 := BitVec.extractLsb'_append_extractLsb'_eq_extractLsb' rfl
  rw [wordAt, hhigh, hlow]
  exact (BitVec.extractLsb'_append_extractLsb'_eq_extractLsb' rfl).trans BitVec.extractLsb'_eq_self

/-- Beyond its end a byte list reads as 0. -/
theorem byteAt_of_length_le {l : List Byte} {i : Nat} (h : l.length ≤ i) : byteAt l i = 0 := by
  rw [byteAt, List.getD_eq_getElem?_getD, List.getElem?_eq_none h, Option.getD_none]

@[simp] theorem padTo_length (n : Nat) (l : List Byte) : (padTo n l).length = n := by simp [padTo]

/-- Padding shows only beyond the end, where a byte list reads as 0 already. -/
theorem byteAt_padTo {n i : Nat} (l : List Byte) (h : i < n) : byteAt (padTo n l) i = byteAt l i := by
  rw [byteAt, padTo, List.getD_eq_getElem?_getD, List.getElem?_take_of_lt h]
  rcases Nat.lt_or_ge i l.length with hi | hi
  · rw [List.getElem?_append_left hi, byteAt, List.getD_eq_getElem?_getD]
  · have hpad : i - l.length < n := by omega
    rw [List.getElem?_append_right hi, List.getElem?_replicate, if_pos hpad, Option.getD_some, byteAt_of_length_le hi]

/-! ## The layout of R185 -/

theorem captureResult_none : captureResult none = List.replicate 72 0 := rfl

@[simp] theorem captureResult_length (o : Option RouseCapture) : (captureResult o).length = 72 := by
  cases o with
  | none => rfl
  | some c => simp [captureResult, natHalf, Half.bytes, Word.bytes]

section
variable (c : RouseCapture)

theorem captureResult_occupied : byteAt (captureResult (some c)) 0 = 0x01 := rfl

theorem captureResult_receivedLength : halfAt (captureResult (some c)) 1 = BitVec.ofNat 16 c.length := halfAt_bytes _

theorem captureResult_arrival : byteAt (captureResult (some c)) 3 = End.code c.arrival := rfl

theorem captureResult_clock : wordAt (captureResult (some c)) 4 = c.clock := wordAt_bytes _

theorem captureResult_field (i : Nat) : byteAt (captureResult (some c)) (8 + i) = byteAt (padTo 64 c.bytes) i := by
  rw [Nat.add_comm]
  rfl

variable {c}

/-- R185: the 64-byte field holds the received bytes, and 0 beyond the received length. -/
theorem captureResult_bytes (hc : c.bytes.length = min 64 c.length) {i : Nat} (hi : i < 64) :
    byteAt (captureResult (some c)) (8 + i) = if i < c.length then byteAt c.bytes i else 0 := by
  rw [captureResult_field, byteAt_padTo _ hi]
  split
  · rfl
  · exact byteAt_of_length_le (by omega)

end

/-! ## READ-CAPTURE -/

theorem exec_readCapture (r : Request) (s : State) : exec (.readCapture r) s = execReadCapture r s := rfl

theorem exec_readCapture_of_passes {r : Request} {s : State} (hs : s.served) (hp : s.passes .readCapture r) :
    exec (.readCapture r) s = .next (s.cmdReadCapture r) := by
  rw [exec_readCapture, execReadCapture, State.runs_of_served hs, State.request_of_passes hp, State.runCommand]

theorem State.cmdReadCapture_of_params {s : State} {r : Request} (h : r.params ≠ []) :
    s.cmdReadCapture r = s.refuse r 0x12 .badParameter [] := if_neg h

theorem State.cmdReadCapture_of_no_params {s : State} {r : Request} (h : r.params = []) :
    s.cmdReadCapture r = s.respond r 0x12 .done (captureResult s.rouse.capture) := if_pos h

/-- Settles O39: the result data are `captureResult` of the capture, read field by field, and `State.respond_frame` keeps
the rouse filter. -/
theorem readCaptureReturnsCapture : Obligations.ReadCaptureReturnsCapture := by
  intro r s hs hp
  rw [exec_readCapture_of_passes hs hp]
  refine ⟨fun hparams => ?_, fun hparams => ?_⟩
  · rw [State.cmdReadCapture_of_params hparams]
    rfl
  · rw [State.cmdReadCapture_of_no_params hparams]
    refine ⟨_, captureResult s.rouse.capture, rfl, rfl, captureResult_length _, by simp, fun hempty => ?_, fun c hc hlen => ?_⟩
    · rw [hempty, captureResult_none]
    · rw [hc]
      exact ⟨captureResult_occupied c, captureResult_receivedLength c, captureResult_arrival c, captureResult_clock c,
        fun i hi => captureResult_bytes hlen hi⟩

end Sys2Proof.Machine
end

section
/-! The first facts of the step and of the resets: the front command, the idle step, the power-on values (R2, R16, R21, R23, R45). -/

namespace Sys2Proof.Machine

/-- Settles O1: the match of `step` on the queue. -/
theorem stepRunsFrontCommand : Obligations.StepRunsFrontCommand := by
  intro c rest s hp
  simp only [step, hp]

/-! ## The idle step -/

/-- What the obligation calls a moment is what the model collects. -/
theorem State.mem_moments_iff (s : State) (c : Instr) :
    c ∈ s.moments ↔
      (∃ e, (c = .settleExpiry e ∧ (s.clm e).settle = some 0) ∨ (c = .greetExpiry e ∧ (s.clm e).greet = some 0)
        ∨ (c = .fadeExpiry e ∧ (s.clm e).fade = some 0) ∨ (c = .rouseExpiry e ∧ (s.clm e).rouse = some 0))
      ∨ (c = .noticeTimerExpiry ∧ s.ng.timer = some 0) ∨ (c = .stagingTimerExpiry ∧ s.su.timer = some 0)
      ∨ (c = .graceTimerExpiry ∧ s.ru.grace = some 0)
      ∨ ∃ p, c = .transmissionStart p ∧ (s.eqm.port p).tx = none ∧ s.pick p ≠ none := by
  simp only [State.mem_moments, State.mem_linkMoments, State.startIsDue_iff, and_comm]

theorem momentIf_sublist (b : Bool) (c : Instr) : (momentIf b c).Sublist [c] := by
  cases b
  · exact List.nil_sublist _
  · exact List.Sublist.refl _

/-- Each moment stands once among the moments of a state. -/
theorem State.moments_nodup (s : State) : s.moments.Nodup := by
  have hlink (e : End) :
      (s.linkMoments e).Sublist ([.settleExpiry e] ++ [.greetExpiry e] ++ [.fadeExpiry e] ++ [.rouseExpiry e]) :=
    (((momentIf_sublist _ _).append (momentIf_sublist _ _)).append (momentIf_sublist _ _)).append (momentIf_sublist _ _)
  have hall := ((((((hlink .a).append (hlink .b)).append (momentIf_sublist (isDue s.ng.timer) .noticeTimerExpiry)).append
    (momentIf_sublist (isDue s.su.timer) .stagingTimerExpiry)).append
    (momentIf_sublist (isDue s.ru.grace) .graceTimerExpiry)).append
    (momentIf_sublist (s.startIsDue .a) (.transmissionStart .a))).append
    (momentIf_sublist (s.startIsDue .b) (.transmissionStart .b)) |>.append
    (momentIf_sublist (s.startIsDue .c) (.transmissionStart .c))
  exact hall.nodup (by decide)

theorem step_of_no_command {s : State} (h : s.pending = []) : step s = s.idle := by
  simp only [step, h]

/-- With one moment due alone, the idle part takes it. -/
theorem State.idle_of_only {s : State} {c : Instr} (hc : c ∈ s.moments) (honly : ∀ d ∈ s.moments, d = c) :
    s.idle = exec c s := by
  have hone : s.moments = [c] := by
    have hnodup := s.moments_nodup
    match hm : s.moments with
    | [] => simp [hm] at hc
    | [d] => rw [honly d (by simp [hm])]
    | d :: d' :: l =>
      rw [hm] at hnodup
      have hd := honly d (by simp [hm])
      have hd' := honly d' (by simp [hm])
      exact absurd (hd.trans hd'.symm) ((List.nodup_cons.1 hnodup).1 <| · ▸ List.mem_cons_self)
  simp only [State.idle, hone]

/-- Settles O2, by `State.idle_cases` once what is due is read as `State.moments`. -/
theorem idleStepTicksClockAndTimers : Obligations.IdleStepTicksClockAndTimers := by
  intro s hp
  simp only [step_of_no_command hp, ← State.mem_moments_iff]
  refine ⟨fun hnone => ?_, fun c hc honly => State.idle_of_only hc honly, ?_⟩
  · rcases s.idle_cases with ⟨-, htick⟩ | ⟨c, hc, -⟩
    · exact htick
    · exact absurd hc (hnone c)
  · rintro ⟨c, hc⟩
    rcases s.idle_cases with ⟨hm, -⟩ | ⟨d, hd, n, hn, hi⟩
    · simp [hm] at hc
    · exact ⟨d, n, hd, hn, hi⟩

/-! ## The reset state -/

/-- Settles O4: each block of `State.reset` is the power-on value of its chapter. -/
theorem resetValuesOfEveryBlock : Obligations.ResetValuesOfEveryBlock := by
  refine ⟨rfl, rfl, fun e => ?_, rfl, rfl, rfl, rfl, rfl, rfl, rfl, rfl, rfl, fun p c => ?_, fun p => ?_, rfl, rfl, rfl, fun r => ?_,
    rfl, rfl⟩
  · cases e <;> rfl
  · cases p <;> cases c <;> rfl
  · cases p <;> rfl
  · cases r <;> rfl

theorem Clm.powerOn_sound : Clm.powerOn.Sound := by
  simp only [Clm.Sound]
  decide

theorem State.reset_clm (e : End) : State.reset.clm e = Clm.powerOn := by cases e <;> rfl

theorem State.reset_port (p : Port) : State.reset.eqm.port p = PortQueues.empty := by cases p <;> rfl

theorem PortQueues.empty_queue (c : Cls) : PortQueues.empty.queue c = [] := by cases c <;> rfl

theorem State.reset_queue (p : Port) (c : Cls) : State.reset.eqm.queue p c = [] := by
  rw [Eqm.queue, State.reset_port, PortQueues.empty_queue]

theorem State.reset_expects (e : End) : State.reset.expects e = none := rfl

theorem State.reset_standing (e : End) : State.reset.ru.standing e = .vacant := by cases e <;> rfl

theorem Timing.default_inRange : TimingInRange Timing.default := by
  intro p
  cases p <;> decide

/-- No rosters, no staging, and the fold context of an empty roster. -/
theorem State.reset_rostersSound : RostersSound State.reset :=
  ⟨fun _ => ⟨rfl, rfl, rfl⟩, ⟨rfl, .inl ⟨rfl, rfl⟩⟩, ⟨rfl, nofun⟩, rfl, rfl⟩

/-- Settles O52, invariant by invariant. -/
theorem invariantsHoldAtReset : Obligations.InvariantsHoldAtReset := by
  refine ⟨rfl, fun p c => ?_, fun p => ?_, ?_, fun e => ⟨fun _ => ?_, fun _ c _ => State.reset_queue _ c⟩,
    ⟨nofun, fun e h => ?_⟩, fun e => ⟨?_, ?_⟩, ⟨Timing.default_inRange, fun e => ?_⟩, ⟨rfl, fun r hr => ?_⟩, rfl,
    ⟨rfl, fun p c x hx => ?_, rfl, rfl⟩, State.reset_rostersSound.1, ⟨fun e => ?_, rfl, rfl⟩, State.reset_rostersSound,
    .nil, fun k hk => ?_, fun e x hx => ?_⟩
  · simp [State.reset_queue]
  · rw [State.reset_port]
    exact ⟨Nat.zero_le _, .nil⟩
  · exact ⟨Nat.zero_le _, .nil, nofun⟩
  · rw [State.reset_port]
    exact ⟨rfl, nofun⟩
  · rw [State.reset_clm] at h
    cases h
  · rw [State.reset_clm]
    exact Clm.powerOn_sound
  · rw [State.reset_clm]
    rintro ⟨-, h⟩
    cases h
  · rw [State.reset_clm]
    decide
  · rw [List.eq_of_mem_replicate hr]
    decide
  · simp [State.reset_queue] at hx
  · rw [State.reset_clm, State.reset_standing]
    rfl
  · cases hk
  · rw [State.reset_expects] at hx
    cases hx

end Sys2Proof.Machine
end

section
/-! What a command can do to the whole state, said once: an invariant of the state that the outputs of the part and its events keep,
every command keeps. `OutputsKept` gathers what answers, floods and emissions are made of; `StateClosed` adds one field for each event. -/

namespace Sys2Proof.Machine

/-- A copy the part offers for admission: a control frame in C0 without a key, or a data frame; never a sleep response (R48, R139). -/
def Entry.Ordinary (e : Entry) (c : Cls) : Prop :=
  ((c = .c0 ∧ e.key = none) ∨ e.frame.kind.isData = true) ∧ e.sleepResponse = false

theorem controlEntry_ordinary (i : Ingress) (f : Frame) : (controlEntry i f).Ordinary .c0 := ⟨.inl ⟨rfl, rfl⟩, rfl⟩

theorem dataEntry_ordinary {f : Frame} (h : f.kind.isData = true) (p : Port) (o : ClassOutcome) (b : Bool) (c : Cls) :
    (dataEntry p f o b).Ordinary c := ⟨.inr h, rfl⟩

/-- An invariant that the outputs of the part keep: the discard log with the refusal tally, the free counter and the notice timer, the
copies offered, and the starts of transmissions. -/
structure OutputsKept (P : State → Prop) : Prop where
  books : ∀ (s : State) (l : DiscardLog) (n : Nat) (h : Half) (t : Timer), P s →
    P { s with discards := l, free := n, cu := { s.cu with refusals := h }, ng := { s.ng with timer := t } }
  offer : ∀ (s : State) (p : Port) (c : Cls) (e : Entry), e.Ordinary c → P s → P (s.offer p c e)
  arbitrate : ∀ (s : State) (p : Port), P s → P (s.arbitrate p)

namespace OutputsKept

variable {P : State → Prop} (k : OutputsKept P) (s : State)
include k

theorem take (ds : List Discard) (h : P s) : P (s.take ds) := k.books s _ s.free s.cu.refusals s.ng.timer h

theorem countRefusal (h : P s) : P s.countRefusal := k.books s s.discards s.free _ s.ng.timer h

theorem clearTallies (h : P s) : P s.clearTallies := k.books s _ s.free _ s.ng.timer h

theorem setFree (n : Nat) (h : P s) : P { s with free := n } := k.books s s.discards n s.cu.refusals s.ng.timer h

theorem setNoticeTimer (t : Timer) (h : P s) : P { s with ng := { s.ng with timer := t } } :=
  k.books s s.discards s.free s.cu.refusals t h

theorem offerControl (p : Port) (i : Ingress) (f : Frame) (h : P s) : P (s.offer p .c0 (controlEntry i f)) :=
  k.offer s p .c0 _ (controlEntry_ordinary i f) h

theorem floodPort (i : Ingress) (f : Frame) (e : End) (h : P s) : P (s.floodPort i f e) := by
  unfold State.floodPort
  split
  · exact h
  · split
    · exact h
    · split
      · exact k.take s _ h
      · exact k.offerControl s _ i f h

theorem flood (i : Ingress) (f : Frame) (h : P s) : P (s.flood i f) := k.floodPort _ _ _ _ (k.floodPort s _ _ _ h)

theorem routeResponse (i : Ingress) (f : Frame) (w : Word) (h : P s) : P (s.routeResponse i f w) := by
  unfold State.routeResponse
  split
  · split
    · exact k.take s _ h
    · exact k.offerControl s _ i f h
  · exact k.flood s i f h

theorem answer (t : ReplyTo) (o : ReplyCode) (d : List Byte) (h : P s) : P (s.answer t o d) := by
  unfold State.answer
  dsimp only
  split
  · exact k.offerControl s _ _ _ h
  · exact k.routeResponse s _ _ _ h
  · exact k.routeResponse s _ _ _ h

theorem respond (r : Request) (c : Byte) (o : ReplyCode) (d : List Byte) (h : P s) : P (s.respond r c o d) := by
  unfold State.respond
  split
  · exact h
  · exact k.answer s _ _ _ h

theorem refuse (r : Request) (c : Byte) (o : ReplyCode) (d : List Byte) (h : P s) : P (s.refuse r c o d) :=
  k.respond _ _ _ _ _ (k.countRefusal s h)

theorem offerNotice (f : Frame) (e : End) (h : P s) : P (s.offerNotice f e) := by
  unfold State.offerNotice
  split
  · exact k.offerControl s _ _ f h
  · exact h

theorem emit (h : P s) : P s.emit :=
  k.setNoticeTimer _ _ (k.offerControl _ _ _ _ (k.offerNotice _ _ _ (k.offerNotice s _ _ h)))

theorem handOverNotice (l : Bool) (u : RosterUnit) (h : P s) : P (s.handOverNotice l u) := by
  unfold State.handOverNotice
  split
  · exact k.emit s h
  · exact h

theorem begun (h : P s) : P s.begun := k.arbitrate _ _ (k.arbitrate _ _ (k.arbitrate s _ h))

theorem answerAbandoned (h : P s) : P s.answerAbandoned := by
  unfold State.answerAbandoned
  split
  · exact k.answer _ _ _ _ (k.countRefusal s h)
  · exact h
  · exact h
  · exact h

theorem noticeExpired (h : P s) : P s.noticeExpired := by
  have ht : P { s with ng := { s.ng with timer := none } } := k.setNoticeTimer s none h
  simp only [State.noticeExpired]
  split
  · exact ht
  · exact k.emit _ ht

/-! ## Data frames and forwarded notices -/

theorem offerCopies (p : Port) {f : Frame} (hf : f.kind.isData = true) (o : ClassOutcome) (l : List Port) (h : P s) :
    P (s.offerCopies p f o l) := by
  induction l generalizing s with
  | nil => exact h
  | cons q l ih => exact ih _ (k.offer s _ _ _ (dataEntry_ordinary hf p o false _) h)

theorem routeData (p : Port) {f : Frame} (hf : f.kind.isData = true) (h : P s) : P (s.routeData p f) := by
  simp only [State.routeData]
  split
  · exact k.take s _ h
  · have ht := k.offerCopies _ p hf (s.cm.classify p f) (s.choosePaths p f).copies
      (k.take s ((s.choosePaths p f).refusals.map (f.discard (.port p))) h)
    split
    · exact k.offer _ _ _ _ (dataEntry_ordinary hf p _ true _) ht
    · exact ht

theorem foreignCheck (e : End) {f : Frame} (hf : f.kind.isData = true) (h : P s) : P (s.foreignCheck e f) := by
  unfold State.foreignCheck
  split
  · exact k.routeData s _ hf h
  · exact k.take s _ h

omit k in
/-- Translation keeps the kind of a frame (R73). -/
theorem translate_kind {prior : List Record} {a : ActiveRoster} {f g : Frame} (h : translate prior a f = some g) :
    g.kind = f.kind := by
  unfold translate at h
  split at h
  · cases h; rfl
  · cases h

theorem judgeGeneration (e : End) {f : Frame} (hf : f.kind.isData = true) (h : P s) : P (s.judgeGeneration e f) := by
  unfold State.judgeGeneration
  split
  · exact k.foreignCheck s e hf h
  · split
    · exact k.take s _ h
    · split
      · split
        · rename_i f' hf'
          exact k.foreignCheck s e (by rw [translate_kind hf', hf]) h
        · exact k.take s _ h
      · exact k.take s _ h

theorem forwardNotice (p : Port) (f : Frame) (h : P s) : P (s.forwardNotice p f) := by
  simp only [State.forwardNotice]
  split
  · exact k.flood s _ f h
  · exact k.offerControl _ _ _ _ (k.flood s _ f h)

end OutputsKept

/-- An invariant that the outputs and the events of the part keep, each event with what is known where it is taken. The two that can make
the part sleep, a completion and a SLEEP, stand apart. -/
structure EventsKept (P : State → Prop) : Prop extends OutputsKept P where
  tick : ∀ s, P s → P s.tick
  wakeInput : ∀ (s : State) (v : Bool), P s → P { s with lines := { s.lines with wakeIn := v } }
  presenceAsserted : ∀ (s : State) (e : End), s.presence e = false → P s → P ((s.setPresence e true).presenceAsserted e)
  presenceNegated : ∀ (s : State) (e : End), s.presence e = true → P s → P ((s.setPresence e false).presenceNegated e)
  capture : ∀ (s : State) (x : RouseFilter), x.wakeFlag = x.capture.isSome → P s → P { s with rouse := x }
  wake : ∀ s : State, s.power = .dormant → P s → P s.wake
  settleExpired : ∀ (s : State) (e : End), (s.clm e).settle = some 0 → P s → P (s.settleExpired e)
  greetExpired : ∀ (s : State) (e : End), (s.clm e).greet = some 0 → P s → P (s.greetExpired e)
  fadeExpired : ∀ (s : State) (e : End), (s.clm e).fade = some 0 → P s → P (s.fadeExpired e)
  rouseExpired : ∀ (s : State) (e : End), (s.clm e).rouse = some 0 → P s → P (s.rouseExpired e)
  validGreet : ∀ (s : State) (e : End) (g : GreetBody), P s → P (s.validGreet e g)
  restarted : ∀ s, P s → P s.restarted
  poweredOn : ∀ s, P s → P s.poweredOn
  identity : ∀ (s : State) (w : Word), s.cu.loaded = false → P s →
    P ((({ s with cu := { s.cu with identity := w, loaded := true } } : State).settleIfReady .a).settleIfReady .b)
  report : ∀ s, P s → P { s with eqm := { s.eqm with overtaken := [], overflow := false } }
  hold : ∀ (s : State) (x : ClassSet), P s → P { s with eqm := { s.eqm with hold := x } }
  rule : ∀ (s : State) (i : Nat) (l : List Byte) (x : Rule), l.length = 42 → ruleOfImage l = some x → P s →
    P { s with cm := { s.cm with rules := s.cm.rules.set i x } }
  policy : ∀ (s : State) (q : Policy) (c : DataClass), P s → P { s with cm := s.cm.setPolicy q c }
  timing : ∀ (s : State) (p : Parameter) (v : Nat), p.low ≤ v → v ≤ p.high → P s → P (s.setTiming p v)
  emptied : ∀ s : State, P s → P { s with su := .powerOn }
  opened : ∀ (s : State) (m : Mode) (w : Word), s.cu.loaded = true → P s →
    P { s with su := { staging := .filling (s.openedBody m w), job := .idle, timer := s.stagingTimerStart } }
  loaded : ∀ (s : State) (b : StagingBody) (l : List Byte) (n : Nat) (w : Word), s.cu.loaded = true → s.su.staging = .filling b →
    blockCount l = some n → b.loadRefusal s.su.job w (blockRecords l n) = none → P s →
    P { s with su := { staging := .filling (b.append (blockRecords l n)), job := .blockFold b.context (l.drop 1)
                       timer := s.stagingTimerStart } }
  confirming : ∀ (s : State) (b : StagingBody) (w : Word) (t : ConfirmTicket), s.cu.loaded = true → s.su.staging = .filling b →
    s.confirmRefusal b w t.generation t.count = none → P s →
    P { s with su := { staging := .confirming b t, job := .finish b.context (trailer t.generation t.count)
                       timer := s.stagingTimerStart } }
  folded : ∀ s, P s → P s.blockFoldDone
  confirmed : ∀ (s : State) (b : StagingBody) (t : ConfirmTicket) (w : Word) (l : List Byte), s.su.job = .finish w l →
    s.su.staging = .confirming b t → P s →
    P { s with su := { staging := .confirmed b { generation := t.generation, count := t.count, check := crcFold w l
                                                 context := b.context, owner := b.owner }
                       job := .idle, timer := s.stagingTimerStart } }
  graceEnded : ∀ s : State, P s → P { s with ru := { s.ru with prior := none, grace := none } }
  changeover : ∀ (s : State) (b : StagingBody) (r : ConfirmedRecord), s.su.staging = .confirmed b r → P s →
    P ((((s.swapRosters b r).recompute true).reevaluate.purgeIfLeft s.ru .a).purgeIfLeft s.ru .b)
  interpret : ∀ (s : State) (f : Frame), P s → P (s.interpret f)

namespace EventsKept

variable {P : State → Prop} (k : EventsKept P) (s : State)
include k

/-! ## Staging and enactment -/

theorem enactment {b : StagingBody} {r : ConfirmedRecord} (hs : s.su.staging = .confirmed b r) (h : P s) : P (s.enactment b r) :=
  k.begun _ (k.handOverNotice _ _ _ (k.begun _ (k.changeover s b r hs h)))

theorem enactConfirmed (h : P s) : P s.enactConfirmed := by
  unfold State.enactConfirmed
  split
  case h_1 b c hs => exact k.enactment s hs h
  all_goals exact h

theorem implicitEnactment (f : Frame) (h : P s) : P (s.implicitEnactment f) := by
  unfold State.implicitEnactment
  split
  case h_1 b c hs =>
    split
    · exact k.enactment s hs h
    · exact h
  all_goals exact h

omit k in
theorem answerAbandoned_ru : s.answerAbandoned.ru = s.ru ∧ s.answerAbandoned.cu.timing = s.cu.timing
    ∧ s.answerAbandoned.cu.loaded = s.cu.loaded := by
  unfold State.answerAbandoned
  split <;> simp [State.countRefusal]

/-- The staging a LOAD-BEGIN opens reads the active roster and the timing alone, which the answer to a CONFIRM in progress leaves. -/
theorem beginStaging (m : Mode) (w : Word) (hl : s.cu.loaded = true) (h : P s) : P (s.beginStaging m w) := by
  obtain ⟨hru, htiming, hloaded⟩ := answerAbandoned_ru s
  have hbody : s.openedBody m w = s.answerAbandoned.openedBody m w := by cases m <;> simp [State.openedBody, hru]
  have htimer : s.stagingTimerStart = s.answerAbandoned.stagingTimerStart := by simp [State.stagingTimerStart, htiming]
  simp only [State.beginStaging, hbody, htimer]
  exact k.opened _ m w (hloaded.trans hl) (k.answerAbandoned s h)

theorem emptyStaging (h : P s) : P s.emptyStaging := k.emptied _ (k.answerAbandoned s h)

theorem finishDone (h : P s) : P s.finishDone := by
  unfold State.finishDone
  split
  case h_1 w l hj =>
    split
    case h_1 b t hs =>
      unfold State.finishWith
      split
      · exact k.answer _ _ _ _ (k.confirmed s b t w l hj hs h)
      · exact k.answer _ _ _ _ (k.countRefusal _ (k.emptied s h))
    all_goals exact h
  all_goals exact h

/-! ## The commands -/

theorem cmdSetIdentity (r : Request) (h : P s) : P (s.cmdSetIdentity r) := by
  unfold State.cmdSetIdentity
  split
  · exact k.refuse s _ _ _ _ h
  · split
    · exact k.refuse s _ _ _ _ h
    · rename_i hl
      exact k.respond _ _ _ _ _ (k.identity s _ (by simpa using hl) h)

theorem cmdReleaseWake (r : Request) (h : P s) : P (s.cmdReleaseWake r) := by
  unfold State.cmdReleaseWake
  split
  · exact k.refuse s _ _ _ _ h
  · exact k.respond _ _ _ _ _ (k.capture s { capture := none, wakeFlag := false } rfl h)

theorem cmdRestart (r : Request) (h : P s) : P (s.cmdRestart r) := by
  unfold State.cmdRestart
  split
  · exact k.refuse s _ _ _ _ h
  · exact k.restarted s h

theorem cmdReadState (r : Request) (h : P s) : P (s.cmdReadState r) := by
  unfold State.cmdReadState
  split
  · exact k.respond s _ _ _ _ h
  · split
    · exact k.respond _ _ _ _ _ (k.clearTallies s h)
    · exact k.refuse s _ _ _ _ h

theorem cmdReadRoster (r : Request) (h : P s) : P (s.cmdReadRoster r) := by
  unfold State.cmdReadRoster
  split
  · split
    · exact k.refuse s _ _ _ _ h
    · split
      · exact k.respond s _ _ _ _ h
      · exact k.refuse s _ _ _ _ h
  · exact k.refuse s _ _ _ _ h

theorem cmdReadCapture (r : Request) (h : P s) : P (s.cmdReadCapture r) := by
  unfold State.cmdReadCapture
  split
  · exact k.respond s _ _ _ _ h
  · exact k.refuse s _ _ _ _ h

theorem cmdReadOvertaken (r : Request) (h : P s) : P (s.cmdReadOvertaken r) := by
  unfold State.cmdReadOvertaken
  split
  · exact k.respond _ _ _ _ _ (k.report s h)
  · exact k.refuse s _ _ _ _ h

theorem cmdRuleRead (r : Request) (h : P s) : P (s.cmdRuleRead r) := by
  unfold State.cmdRuleRead
  split
  · split
    · exact k.respond s _ _ _ _ h
    · exact k.refuse s _ _ _ _ h
  · exact k.refuse s _ _ _ _ h

theorem cmdLoadBegin (r : Request) (hl : s.cu.loaded = true) (h : P s) : P (s.cmdLoadBegin r) := by
  unfold State.cmdLoadBegin
  split
  · exact k.refuse s _ _ _ _ h
  · split
    · exact k.refuse s _ _ _ _ h
    · exact k.respond _ _ _ _ _ (k.beginStaging s _ _ hl h)

theorem cmdLoadRecords (r : Request) (hl : s.cu.loaded = true) (h : P s) : P (s.cmdLoadRecords r) := by
  unfold State.cmdLoadRecords
  split
  · exact k.refuse s _ _ _ _ h
  · rename_i n hn
    split
    case h_1 b hb =>
      dsimp only
      split
      · exact k.refuse s _ _ _ _ h
      · rename_i hnone
        exact k.respond _ _ _ _ _ (k.loaded s b r.params n _ hl hb hn hnone h)
    all_goals exact k.refuse s _ _ _ _ h

theorem cmdConfirm (r : Request) (hl : s.cu.loaded = true) (h : P s) : P (s.cmdConfirm r) := by
  unfold State.cmdConfirm
  split
  · exact k.refuse s _ _ _ _ h
  · split
    case h_1 b hb =>
      dsimp only
      split
      · exact k.refuse s _ _ _ _ h
      · rename_i hnone
        exact k.confirming s b _ _ hl hb hnone h
    all_goals exact k.refuse s _ _ _ _ h

theorem cmdDiscard (r : Request) (h : P s) : P (s.cmdDiscard r) := by
  unfold State.cmdDiscard
  split
  · exact k.refuse s _ _ _ _ h
  · split
    · exact k.refuse s _ _ _ _ h
    · exact k.respond _ _ _ _ _ (k.emptyStaging s h)

theorem cmdEnact (r : Request) (h : P s) : P (s.cmdEnact r) := by
  unfold State.cmdEnact
  split
  · exact k.refuse s _ _ _ _ h
  · exact k.respond _ _ _ _ _ (k.enactConfirmed s h)

theorem cmdRuleWrite (r : Request) (h : P s) : P (s.cmdRuleWrite r) := by
  unfold State.cmdRuleWrite
  split
  · exact k.refuse s _ _ _ _ h
  · rename_i hlen
    split
    · exact k.refuse s _ _ _ _ h
    · rename_i x hx
      have h42 : (r.params.drop 1).length = 42 := by
        rw [List.length_drop]
        omega
      exact k.respond _ _ _ _ _ (k.rule s _ _ x h42 hx h)

theorem cmdHold (r : Request) (h : P s) : P (s.cmdHold r) := by
  unfold State.cmdHold
  split
  · exact k.refuse s _ _ _ _ h
  · exact k.respond _ _ _ _ _ (k.hold s _ h)

theorem cmdRelease (r : Request) (h : P s) : P (s.cmdRelease r) := by
  unfold State.cmdRelease
  split
  · exact k.refuse s _ _ _ _ h
  · exact k.respond _ _ _ _ _ (k.begun _ (k.hold s _ h))

theorem cmdSetTiming (r : Request) (h : P s) : P (s.cmdSetTiming r) := by
  unfold State.cmdSetTiming
  split
  · dsimp only
    split
    · rename_i hv
      exact k.respond _ _ _ _ _ (k.timing s _ _ hv.1 hv.2 h)
    · exact k.refuse s _ _ _ _ h
  · exact k.refuse s _ _ _ _ h

theorem cmdSetClass (r : Request) (h : P s) : P (s.cmdSetClass r) := by
  unfold State.cmdSetClass
  split
  · split
    · exact k.respond _ _ _ _ _ (k.policy s _ _ h)
    · exact k.refuse s _ _ _ _ h
  · exact k.refuse s _ _ _ _ h

omit k in
/-- R172 test 4: a command that passes and needs the identity finds it loaded. -/
theorem loaded_of_commonRefusal {c : Command} {r : Request} (h : s.commonRefusal c r = none) (hp : c.portCOnly = false)
    (hr : c.isRead = false) : s.cu.loaded = true := by
  cases hl : s.cu.loaded with
  | true => rfl
  | false =>
    unfold State.commonRefusal at h
    split at h
    · cases h
    · split at h
      · cases h
      · rw [if_pos ⟨hl, hp, hr⟩] at h
        cases h

/-- Every command that is run, but SLEEP. -/
theorem runCommand {c : Command} {r : Request} (hc : s.commonRefusal c r = none) (hs : c ≠ .sleep) (h : P s) :
    P (s.runCommand c r) := by
  cases c with
  | setIdentity => exact k.cmdSetIdentity s r h
  | sleep => exact absurd rfl hs
  | releaseWake => exact k.cmdReleaseWake s r h
  | restart => exact k.cmdRestart s r h
  | readState => exact k.cmdReadState s r h
  | readRoster => exact k.cmdReadRoster s r h
  | readCapture => exact k.cmdReadCapture s r h
  | readOvertaken => exact k.cmdReadOvertaken s r h
  | ruleRead => exact k.cmdRuleRead s r h
  | loadBegin => exact k.cmdLoadBegin s r (loaded_of_commonRefusal s hc rfl rfl) h
  | loadRecords => exact k.cmdLoadRecords s r (loaded_of_commonRefusal s hc rfl rfl) h
  | confirm => exact k.cmdConfirm s r (loaded_of_commonRefusal s hc rfl rfl) h
  | discard => exact k.cmdDiscard s r h
  | enact => exact k.cmdEnact s r h
  | ruleWrite => exact k.cmdRuleWrite s r h
  | hold => exact k.cmdHold s r h
  | release => exact k.cmdRelease s r h
  | setTiming => exact k.cmdSetTiming s r h
  | setClass => exact k.cmdSetClass s r h

/-- A request for every part is never a SLEEP (R172 test 2). -/
theorem handleCode_all (c : Byte) {r : Request} (hr : r.target = targetAll) (h : P s) : P (s.handleCode c r) := by
  unfold State.handleCode
  split
  · rename_i c _
    unfold State.handle
    split
    · exact k.refuse s _ _ _ _ h
    · rename_i hnone
      refine k.runCommand s hnone ?_ h
      rintro rfl
      simp [State.commonRefusal, hr, Command.acceptsAll] at hnone
  · exact k.refuse s _ _ _ _ h

/-! ## Arrivals that are no requests -/

theorem receiveNotice (p : Port) (f : Frame) (h : P s) : P (s.receiveNotice p f) := by
  have hi := k.interpret s f h
  simp only [State.receiveNotice]
  split
  · exact k.forwardNotice _ p f hi
  · have hu := k.setFree _ ((s.interpret f).free + 1) hi
    split
    · exact k.emit _ (k.forwardNotice _ p f hu)
    · exact k.forwardNotice _ p f (k.emit _ hu)

theorem greetReceipt (e : End) (f : Frame) (h : P s) : P (s.greetReceipt e f) := by
  unfold State.greetReceipt
  split
  · exact k.take s _ h
  · split
    · exact k.take s _ h
    · exact k.validGreet s e _ h

theorem rouseFilter (hs : s.power = .dormant) (e : End) (b : List Byte) (h : P s) : P (s.rouseFilter e b) := by
  unfold State.rouseFilter
  split
  · exact k.wake _ hs (k.capture s { capture := some (s.captureOf e b), wakeFlag := true } rfl h)
  · exact h

end EventsKept

/-- An invariant `P` that the outputs and the events keep, and what it comes to after any command: `Q`. -/
structure StateLeads (P Q : State → Prop) : Prop extends EventsKept P where
  final : ∀ s, P s → Q s
  completed : ∀ (s : State) (p : Port), P s → Q (s.completed p)
  cmdSleep : ∀ (s : State) (r : Request), P s → Q (s.cmdSleep r)

namespace StateLeads

variable {P Q : State → Prop} (k : StateLeads P Q) (s : State)
include k

/-! ## Requests -/

theorem handle (c : Command) (r : Request) (h : P s) : Q (s.handle c r) := by
  unfold State.handle
  split
  · exact k.final _ (k.refuse s _ _ _ _ h)
  · by_cases hc : c = .sleep
    · subst hc
      exact k.cmdSleep s r h
    · exact k.final _ (k.runCommand s (by assumption) hc h)

theorem handleCode (c : Byte) (r : Request) (h : P s) : Q (s.handleCode c r) := by
  unfold State.handleCode
  split
  · exact k.handle s _ r h
  · exact k.final _ (k.refuse s _ _ _ _ h)

theorem request (c : Command) (r : Request) (h : P s) : Q (s.request c r) := by
  unfold State.request
  split
  · exact k.handle s c r h
  · exact k.final s h

/-! ## Arrivals -/

theorem receiveRequest (p : Port) (f : Frame) (h : P s) : Q (s.receiveRequest p f) := by
  simp only [State.receiveRequest]
  split
  · rename_i hall
    split
    · have hu := k.setFree s (s.free + 1) h
      split
      · exact k.final _ (k.handleCode_all _ _ hall (k.flood _ _ f hu))
      · exact k.final _ (k.flood _ _ f (k.handleCode_all _ _ hall hu))
    · exact k.final _ (k.flood _ _ f (k.handleCode_all s _ hall h))
  · split
    · exact k.handleCode s _ _ h
    · exact k.final _ (k.flood s _ f h)

theorem routeControl (p : Port) (f : Frame) (h : P s) : Q (s.routeControl p f) := by
  unfold State.routeControl
  split
  · exact k.receiveRequest s p f h
  · exact k.final _ (k.routeResponse s _ f _ h)
  · exact k.final _ (k.receiveNotice s p f h)
  all_goals exact k.final s h

theorem afterDispatch (e : End) (f : Frame) (h : P s) : Q (s.afterDispatch e f) := by
  have hi := k.implicitEnactment s f h
  simp only [State.afterDispatch]
  split
  · rename_i hf
    exact k.final _ (k.judgeGeneration _ e hf hi)
  · exact k.routeControl _ _ f hi

theorem dispatch (e : End) (f : Frame) (h : P s) : Q (s.dispatch e f) := by
  unfold State.dispatch
  split
  case h_1 => exact k.final _ (k.greetReceipt s e f h)
  case h_2 => exact k.final s h
  case h_3 | h_4 | h_5 => exact k.afterDispatch s e f h
  all_goals
    split
    · exact k.final _ (k.take s _ h)
    · exact k.afterDispatch s e f h

theorem intakeCoupler (e : End) (b : List Byte) (h : P s) : Q (s.intakeCoupler e b) := by
  unfold State.intakeCoupler
  split
  · exact k.final _ (k.take s _ h)
  · exact k.dispatch s e _ h

theorem intakeC (b : List Byte) (h : P s) : Q (s.intakeC b) := by
  unfold State.intakeC
  split
  · exact k.final _ (k.take s _ h)
  · split
    · exact k.final _ (k.take s _ h)
    · split
      · rename_i hf
        exact k.final _ (k.routeData s _ hf h)
      · exact k.routeControl s _ _ h

/-! ## Every command and every step -/

omit k in
/-- What a guarded event keeps. -/
theorem guarded {Q : Prop} [Decidable Q] {t : State} (h : P s) (ht : Q → P t) : P (if Q then t else s) := by
  split
  · exact ht (by assumption)
  · exact h

omit k in
/-- What an expiry keeps: a row whose timer is not due changes nothing. -/
theorem expiry {x : Timer} {t : State} (h : P s) (ht : x = some 0 → P t) : P (if isDue x then t else s) :=
  guarded s h fun hd => ht ((isDue_iff x).1 hd)

omit k in
/-- A limit row is an expiry (log 5). -/
theorem due_of_limit (e : End) :
    (s.answerLimitDue e = true → (s.clm e).greet = some 0) ∧ (s.silenceLimitDue e = true → (s.clm e).greet = some 0)
      ∧ (s.rouseBurstDue e = true → (s.clm e).rouse = some 0) := by
  simp +contextual [State.answerLimitDue, State.silenceLimitDue, State.rouseBurstDue, isDue_iff]

/-- What an invariant that the outputs and the events keep comes to after a command. -/
theorem exec {i : Instr} {s t : State} (h : P s) (e : exec i s = .next t) : Q t := by
  have hb := k.begun s h
  cases i <;> cases e
  case transmissionStart p => exact k.final _ (k.arbitrate s p h)
  case powerOnReset => exact k.final _ (k.poweredOn s h)
  all_goals
    dsimp only
    clear h
    generalize s.begun = u at hb
    have hu := k.final u hb
  case presenceAssertion e =>
    split
    · exact hu
    · exact k.final _ (k.presenceAsserted u e (by simpa using ‹¬ u.presence e = true›) hb)
  case presenceNegation e => exact guarded u hu fun hp => k.final _ (k.presenceNegated u e hp hb)
  case wakeInAssertion =>
    split
    · exact hu
    · have hl := k.wakeInput u true hb
      split
      · exact k.final _ (k.wake _ (by assumption) hl)
      · exact k.final _ hl
  case arrivalOnCouplerPort e b =>
    split
    · exact k.intakeCoupler u e b hb
    · exact k.final _ (k.rouseFilter u (by assumption) e b hb)
  case arrivalOnPortC b =>
    split
    · exact k.intakeC u b hb
    · exact hu
  case dormantArrival e b =>
    split
    · exact k.final _ (k.rouseFilter u (by assumption) e b hb)
    · exact k.intakeCoupler u e b hb
  case settleExpiry e => exact expiry u hu fun ht => k.final _ (k.settleExpired u e ht hb)
  case greetExpiry e => exact expiry u hu fun ht => k.final _ (k.greetExpired u e ht hb)
  case answerLimitReached e => exact guarded u hu fun hd => k.final _ (k.greetExpired u e ((due_of_limit u e).1 hd) hb)
  case silenceLimitReached e => exact guarded u hu fun hd => k.final _ (k.greetExpired u e ((due_of_limit u e).2.1 hd) hb)
  case fadeExpiry e => exact expiry u hu fun ht => k.final _ (k.fadeExpired u e ht hb)
  case rouseExpiry e => exact expiry u hu fun ht => k.final _ (k.rouseExpired u e ht hb)
  case rouseBurstReached e => exact guarded u hu fun hd => k.final _ (k.rouseExpired u e ((due_of_limit u e).2.2 hd) hb)
  case noticeTimerExpiry => exact expiry u hu fun _ => k.final _ (k.noticeExpired u hb)
  case transmissionCompletion p => exact guarded u hu fun _ => k.completed u p hb
  case blockFoldCompletion => exact k.final _ (k.folded u hb)
  case finishCompletion => exact k.final _ (k.finishDone u hb)
  case stagingTimerExpiry => exact expiry u hu fun _ => k.final _ (k.emptyStaging u hb)
  case graceTimerExpiry => exact expiry u hu fun _ => k.final _ (k.graceEnded u hb)
  case wakeInNegation => exact k.final _ (k.wakeInput u false hb)
  case unknownCommand c r => exact guarded u hu fun _ => k.handleCode u c r hb
  all_goals exact k.request u _ _ hb

/-- The same for a step, of an invariant that does not read the waiting commands. -/
theorem step (hpending : ∀ (s : State) l, P s → P { s with pending := l }) {s t : State} (h : P s) (e : step s = .next t) : Q t := by
  rcases step_cases e with ⟨c, rest, -, he⟩ | ⟨-, -, rfl⟩ | ⟨-, c, -, n, he⟩
  · exact k.exec (hpending s rest h) he
  · exact k.final _ (k.tick s h)
  · exact k.exec (k.setFree s n h) he

end StateLeads

/-- An invariant that the outputs and every event keep. -/
structure StateClosed (P : State → Prop) : Prop extends EventsKept P where
  completed : ∀ (s : State) (p : Port), P s → P (s.completed p)
  cmdSleep : ∀ (s : State) (r : Request), P s → P (s.cmdSleep r)

namespace StateClosed

variable {P : State → Prop} (k : StateClosed P)
include k

theorem leads : StateLeads P P := { toEventsKept := k.toEventsKept, final := fun _ h => h, completed := k.completed, cmdSleep := k.cmdSleep }

/-- An invariant that the outputs and the events keep, every command keeps. -/
theorem exec {i : Instr} {s t : State} (h : P s) (e : Machine.exec i s = .next t) : P t := k.leads.exec h e

/-- An invariant that the outputs and the events keep, and that does not read the waiting commands, every step keeps. -/
theorem step (hpending : ∀ (s : State) l, P s → P { s with pending := l }) {s t : State} (h : P s) (e : Machine.step s = .next t) :
    P t := k.leads.step hpending h e

end StateClosed

end Sys2Proof.Machine
end

section
/-! What the events of the part leave unchanged: one lemma for each, in the manner of the frame lemmas of the shared operations. -/

namespace Sys2Proof.Machine

/-- The test of R29 changes one link monitor alone. -/
@[simp] theorem State.settleIfReady_frame (s : State) (e : End) :
    (s.settleIfReady e).lines = s.lines
      ∧ (s.settleIfReady e).clock = s.clock
      ∧ (s.settleIfReady e).rouse = s.rouse
      ∧ (s.settleIfReady e).ru = s.ru
      ∧ (s.settleIfReady e).ng = s.ng
      ∧ (s.settleIfReady e).su = s.su
      ∧ (s.settleIfReady e).eqm = s.eqm
      ∧ (s.settleIfReady e).discards = s.discards
      ∧ (s.settleIfReady e).cu = s.cu
      ∧ (s.settleIfReady e).free = s.free
      ∧ (s.settleIfReady e).pending = s.pending
      ∧ (∀ x, (s.settleIfReady e).presence x = s.presence x) := by
  unfold State.settleIfReady
  split <;> simp [State.presence]

/-- Entry to DARK changes one link monitor and its port alone (R29). -/
@[simp] theorem State.enterDark_frame (s : State) (e : End) :
    (s.enterDark e).lines = s.lines
      ∧ (s.enterDark e).power = s.power
      ∧ (s.enterDark e).clock = s.clock
      ∧ (s.enterDark e).rouse = s.rouse
      ∧ (s.enterDark e).ru = s.ru
      ∧ (s.enterDark e).ng = s.ng
      ∧ (s.enterDark e).su = s.su
      ∧ (s.enterDark e).discards = s.discards
      ∧ (s.enterDark e).cu = s.cu
      ∧ (s.enterDark e).free = s.free
      ∧ (s.enterDark e).pending = s.pending
      ∧ (∀ x, (s.enterDark e).presence x = s.presence x) := by
  simp [State.enterDark, State.presence]

/-- Entry to LISTEN changes one link monitor and its port alone (R46). -/
@[simp] theorem State.enterListen_frame (s : State) (e : End) :
    (s.enterListen e).lines = s.lines
      ∧ (s.enterListen e).power = s.power
      ∧ (s.enterListen e).clock = s.clock
      ∧ (s.enterListen e).rouse = s.rouse
      ∧ (s.enterListen e).ru = s.ru
      ∧ (s.enterListen e).ng = s.ng
      ∧ (s.enterListen e).su = s.su
      ∧ (s.enterListen e).discards = s.discards
      ∧ (s.enterListen e).cu = s.cu
      ∧ (s.enterListen e).free = s.free
      ∧ (s.enterListen e).pending = s.pending
      ∧ (∀ x, (s.enterListen e).presence x = s.presence x) := by
  simp [State.enterListen, State.presence]

/-- The loss of a FADING link leaves what is neither link, judgement nor queue (R42, R43). -/
@[simp] theorem State.loseToDark_frame (s : State) (e : End) (l : LossCause) :
    (s.loseToDark e l).lines = s.lines
      ∧ (s.loseToDark e l).power = s.power
      ∧ (s.loseToDark e l).clock = s.clock
      ∧ (s.loseToDark e l).rouse = s.rouse
      ∧ (s.loseToDark e l).su = s.su
      ∧ (s.loseToDark e l).cu = s.cu
      ∧ (s.loseToDark e l).free = s.free
      ∧ (s.loseToDark e l).pending = s.pending
      ∧ (∀ x, (s.loseToDark e l).presence x = s.presence x)
      ∧ (s.loseToDark e l).ru.active = s.ru.active
      ∧ (s.loseToDark e l).ru.prior = s.ru.prior
      ∧ (s.loseToDark e l).ru.grace = s.ru.grace := by
  simp [State.loseToDark, State.presence]

/-- The loss of a link leaves what is neither link, judgement nor queue (R42, R43). -/
@[simp] theorem State.lose_frame (s : State) (e : End) (l : LossCause) (c : Option Candidate) :
    (s.lose e l c).lines = s.lines
      ∧ (s.lose e l c).power = s.power
      ∧ (s.lose e l c).clock = s.clock
      ∧ (s.lose e l c).rouse = s.rouse
      ∧ (s.lose e l c).su = s.su
      ∧ (s.lose e l c).cu = s.cu
      ∧ (s.lose e l c).free = s.free
      ∧ (s.lose e l c).pending = s.pending
      ∧ (∀ x, (s.lose e l c).presence x = s.presence x)
      ∧ (s.lose e l c).ru.active = s.ru.active
      ∧ (s.lose e l c).ru.prior = s.ru.prior
      ∧ (s.lose e l c).ru.grace = s.ru.grace := by
  unfold State.lose
  split
  · simp
  · simp [State.loseToGreeting, State.presence]

/-- Waking leaves what is neither link, judgement nor queue (R56). -/
@[simp] theorem State.wake_frame (s : State) :
    (s.wake).lines = s.lines
      ∧ (s.wake).clock = s.clock
      ∧ (s.wake).rouse = s.rouse
      ∧ (s.wake).su = s.su
      ∧ (s.wake).discards = s.discards
      ∧ (s.wake).cu = s.cu
      ∧ (s.wake).free = s.free
      ∧ (s.wake).pending = s.pending
      ∧ s.wake.power = .active
      ∧ (∀ x, (s.wake).presence x = s.presence x)
      ∧ (s.wake).ru.active = s.ru.active
      ∧ (s.wake).ru.prior = s.ru.prior
      ∧ (s.wake).ru.grace = s.ru.grace := by
  simp [State.wake, State.presence]

/-- What a port sends is abandoned or not: the emptied queue manager is the same (R49). -/
@[simp] theorem Eqm.emptied_abandonLinkControl (q : Eqm) (p : Port) : (q.abandonLinkControl p).emptied = q.emptied := by
  unfold Eqm.abandonLinkControl
  split <;> simp [Eqm.emptied]

/-- Entry to DORMANT (R46, R49, R50). -/
@[simp] theorem State.enterDormant_frame (s : State) :
    (s.enterDormant).lines = s.lines
      ∧ (s.enterDormant).clock = s.clock
      ∧ (s.enterDormant).rouse = s.rouse
      ∧ (s.enterDormant).discards = s.discards
      ∧ (s.enterDormant).free = s.free
      ∧ (s.enterDormant).pending = s.pending
      ∧ s.enterDormant.power = .dormant
      ∧ s.enterDormant.su = .powerOn
      ∧ s.enterDormant.cu = { s.cu with sleepPending := false }
      ∧ s.enterDormant.eqm = s.eqm.emptied
      ∧ s.enterDormant.ru.prior = none
      ∧ s.enterDormant.ru.grace = none
      ∧ s.enterDormant.ru.active = s.ru.active
      ∧ s.enterDormant.ng.timer = none
      ∧ (∀ x, (s.enterDormant).presence x = s.presence x) := by
  simp [State.enterDormant, State.enterListen, State.presence]

/-- A presence assertion changes one link monitor alone (R29, R40). -/
@[simp] theorem State.presenceAsserted_frame (s : State) (e : End) :
    (s.presenceAsserted e).lines = s.lines
      ∧ (s.presenceAsserted e).power = s.power
      ∧ (s.presenceAsserted e).clock = s.clock
      ∧ (s.presenceAsserted e).rouse = s.rouse
      ∧ (s.presenceAsserted e).ru = s.ru
      ∧ (s.presenceAsserted e).ng = s.ng
      ∧ (s.presenceAsserted e).su = s.su
      ∧ (s.presenceAsserted e).eqm = s.eqm
      ∧ (s.presenceAsserted e).discards = s.discards
      ∧ (s.presenceAsserted e).cu = s.cu
      ∧ (s.presenceAsserted e).free = s.free
      ∧ (s.presenceAsserted e).pending = s.pending
      ∧ (∀ x, (s.presenceAsserted e).presence x = s.presence x) := by
  unfold State.presenceAsserted
  split <;> simp

/-- A presence negation changes one link monitor and its port alone (R30, R33, R35, R39). -/
@[simp] theorem State.presenceNegated_frame (s : State) (e : End) :
    (s.presenceNegated e).lines = s.lines
      ∧ (s.presenceNegated e).power = s.power
      ∧ (s.presenceNegated e).clock = s.clock
      ∧ (s.presenceNegated e).rouse = s.rouse
      ∧ (s.presenceNegated e).ru = s.ru
      ∧ (s.presenceNegated e).ng = s.ng
      ∧ (s.presenceNegated e).su = s.su
      ∧ (s.presenceNegated e).discards = s.discards
      ∧ (s.presenceNegated e).cu = s.cu
      ∧ (s.presenceNegated e).free = s.free
      ∧ (s.presenceNegated e).pending = s.pending
      ∧ (∀ x, (s.presenceNegated e).presence x = s.presence x) := by
  unfold State.presenceNegated
  split <;> simp

/-- A settle expiry changes one link monitor alone (R30). -/
@[simp] theorem State.settleExpired_frame (s : State) (e : End) :
    (s.settleExpired e).lines = s.lines
      ∧ (s.settleExpired e).power = s.power
      ∧ (s.settleExpired e).clock = s.clock
      ∧ (s.settleExpired e).rouse = s.rouse
      ∧ (s.settleExpired e).ru = s.ru
      ∧ (s.settleExpired e).ng = s.ng
      ∧ (s.settleExpired e).su = s.su
      ∧ (s.settleExpired e).eqm = s.eqm
      ∧ (s.settleExpired e).discards = s.discards
      ∧ (s.settleExpired e).cu = s.cu
      ∧ (s.settleExpired e).free = s.free
      ∧ (s.settleExpired e).pending = s.pending
      ∧ (∀ x, (s.settleExpired e).presence x = s.presence x) := by
  unfold State.settleExpired
  split <;> simp

/-- A rouse expiry changes one link monitor alone (R34). -/
@[simp] theorem State.rouseExpired_frame (s : State) (e : End) :
    (s.rouseExpired e).lines = s.lines
      ∧ (s.rouseExpired e).power = s.power
      ∧ (s.rouseExpired e).clock = s.clock
      ∧ (s.rouseExpired e).rouse = s.rouse
      ∧ (s.rouseExpired e).ru = s.ru
      ∧ (s.rouseExpired e).ng = s.ng
      ∧ (s.rouseExpired e).su = s.su
      ∧ (s.rouseExpired e).eqm = s.eqm
      ∧ (s.rouseExpired e).discards = s.discards
      ∧ (s.rouseExpired e).cu = s.cu
      ∧ (s.rouseExpired e).free = s.free
      ∧ (s.rouseExpired e).pending = s.pending
      ∧ (∀ x, (s.rouseExpired e).presence x = s.presence x) := by
  unfold State.rouseExpired
  split <;> simp

/-- A greet expiry leaves what is neither link, judgement nor queue (R33, R38, R41). -/
@[simp] theorem State.greetExpired_frame (s : State) (e : End) :
    (s.greetExpired e).lines = s.lines
      ∧ (s.greetExpired e).power = s.power
      ∧ (s.greetExpired e).clock = s.clock
      ∧ (s.greetExpired e).rouse = s.rouse
      ∧ (s.greetExpired e).su = s.su
      ∧ (s.greetExpired e).cu = s.cu
      ∧ (s.greetExpired e).free = s.free
      ∧ (s.greetExpired e).pending = s.pending
      ∧ (∀ x, (s.greetExpired e).presence x = s.presence x)
      ∧ (s.greetExpired e).ru.active = s.ru.active
      ∧ (s.greetExpired e).ru.prior = s.ru.prior
      ∧ (s.greetExpired e).ru.grace = s.ru.grace := by
  simp only [State.greetExpired, State.greetInJoined]
  split
  case h_3 | h_4 => split <;> simp
  all_goals simp

/-- A fade expiry leaves what is neither link, judgement nor queue (R40). -/
@[simp] theorem State.fadeExpired_frame (s : State) (e : End) :
    (s.fadeExpired e).lines = s.lines
      ∧ (s.fadeExpired e).power = s.power
      ∧ (s.fadeExpired e).clock = s.clock
      ∧ (s.fadeExpired e).rouse = s.rouse
      ∧ (s.fadeExpired e).su = s.su
      ∧ (s.fadeExpired e).cu = s.cu
      ∧ (s.fadeExpired e).free = s.free
      ∧ (s.fadeExpired e).pending = s.pending
      ∧ (∀ x, (s.fadeExpired e).presence x = s.presence x)
      ∧ (s.fadeExpired e).ru.active = s.ru.active
      ∧ (s.fadeExpired e).ru.prior = s.ru.prior
      ∧ (s.fadeExpired e).ru.grace = s.ru.grace := by
  unfold State.fadeExpired
  split <;> simp

/-- A GREET leaves what is neither link, judgement nor queue (R32, R35, R37, R41). -/
@[simp] theorem State.validGreet_frame (s : State) (e : End) (g : GreetBody) :
    (s.validGreet e g).lines = s.lines
      ∧ (s.validGreet e g).power = s.power
      ∧ (s.validGreet e g).clock = s.clock
      ∧ (s.validGreet e g).rouse = s.rouse
      ∧ (s.validGreet e g).su = s.su
      ∧ (s.validGreet e g).cu = s.cu
      ∧ (s.validGreet e g).free = s.free
      ∧ (s.validGreet e g).pending = s.pending
      ∧ (∀ x, (s.validGreet e g).presence x = s.presence x)
      ∧ (s.validGreet e g).ru.active = s.ru.active
      ∧ (s.validGreet e g).ru.prior = s.ru.prior
      ∧ (s.validGreet e g).ru.grace = s.ru.grace := by
  simp only [State.validGreet]
  split
  case h_1 | h_3 | h_4 => split <;> simp
  all_goals simp

/-- A re-evaluation changes the queues and the discard log alone (R116 to R121). -/
@[simp] theorem State.reevaluate_frame (s : State) :
    (s.reevaluate).lines = s.lines
      ∧ (s.reevaluate).power = s.power
      ∧ (s.reevaluate).clock = s.clock
      ∧ (s.reevaluate).clmA = s.clmA
      ∧ (s.reevaluate).clmB = s.clmB
      ∧ (s.reevaluate).rouse = s.rouse
      ∧ (s.reevaluate).ru = s.ru
      ∧ (s.reevaluate).ng = s.ng
      ∧ (s.reevaluate).su = s.su
      ∧ (s.reevaluate).cm = s.cm
      ∧ (s.reevaluate).cu = s.cu
      ∧ (s.reevaluate).free = s.free
      ∧ (s.reevaluate).pending = s.pending
      ∧ (∀ x, (s.reevaluate).clm x = s.clm x)
      ∧ (∀ x, (s.reevaluate).presence x = s.presence x) := by
  simp [State.reevaluate, State.presence]
  intro x; cases x <;> rfl

/-- The exchange of rosters changes rosters, grace and staging alone (R106). -/
@[simp] theorem State.swapRosters_frame (s : State) (b : StagingBody) (r : ConfirmedRecord) :
    (s.swapRosters b r).lines = s.lines
      ∧ (s.swapRosters b r).power = s.power
      ∧ (s.swapRosters b r).clock = s.clock
      ∧ (s.swapRosters b r).clmA = s.clmA
      ∧ (s.swapRosters b r).clmB = s.clmB
      ∧ (s.swapRosters b r).rouse = s.rouse
      ∧ (s.swapRosters b r).ng = s.ng
      ∧ (s.swapRosters b r).cm = s.cm
      ∧ (s.swapRosters b r).eqm = s.eqm
      ∧ (s.swapRosters b r).discards = s.discards
      ∧ (s.swapRosters b r).cu = s.cu
      ∧ (s.swapRosters b r).free = s.free
      ∧ (s.swapRosters b r).pending = s.pending
      ∧ (∀ x, (s.swapRosters b r).clm x = s.clm x)
      ∧ (∀ x, (s.swapRosters b r).presence x = s.presence x) := by
  simp [State.swapRosters, State.presence]
  intro x; cases x <;> rfl

/-- The severance interpretation changes the cut map and the authority alone (R133, R135). -/
@[simp] theorem State.interpret_frame (s : State) (f : Frame) :
    (s.interpret f).lines = s.lines
      ∧ (s.interpret f).power = s.power
      ∧ (s.interpret f).clock = s.clock
      ∧ (s.interpret f).clmA = s.clmA
      ∧ (s.interpret f).clmB = s.clmB
      ∧ (s.interpret f).rouse = s.rouse
      ∧ (s.interpret f).ng = s.ng
      ∧ (s.interpret f).su = s.su
      ∧ (s.interpret f).eqm = s.eqm
      ∧ (s.interpret f).discards = s.discards
      ∧ (s.interpret f).cu = s.cu
      ∧ (s.interpret f).free = s.free
      ∧ (s.interpret f).pending = s.pending
      ∧ (∀ x, (s.interpret f).clm x = s.clm x)
      ∧ (∀ x, (s.interpret f).presence x = s.presence x)
      ∧ (s.interpret f).ru.active = s.ru.active
      ∧ (s.interpret f).ru.prior = s.ru.prior
      ∧ (s.interpret f).ru.grace = s.ru.grace
      ∧ (∀ e, (s.interpret f).ru.standing e = s.ru.standing e) := by
  unfold State.interpret
  split
  · simp
  · refine ⟨rfl, rfl, rfl, rfl, rfl, rfl, rfl, rfl, rfl, rfl, rfl, rfl, rfl, fun x => ?_, fun x => rfl, rfl, rfl, rfl, fun x => ?_⟩ <;>
      cases x <;> rfl

/-- The completion of a block fold changes the staging and the check unit alone (R85). -/
@[simp] theorem State.blockFoldDone_frame (s : State) :
    (s.blockFoldDone).lines = s.lines
      ∧ (s.blockFoldDone).power = s.power
      ∧ (s.blockFoldDone).clock = s.clock
      ∧ (s.blockFoldDone).clmA = s.clmA
      ∧ (s.blockFoldDone).clmB = s.clmB
      ∧ (s.blockFoldDone).rouse = s.rouse
      ∧ (s.blockFoldDone).ru = s.ru
      ∧ (s.blockFoldDone).ng = s.ng
      ∧ (s.blockFoldDone).eqm = s.eqm
      ∧ (s.blockFoldDone).discards = s.discards
      ∧ (s.blockFoldDone).cu = s.cu
      ∧ (s.blockFoldDone).free = s.free
      ∧ (s.blockFoldDone).pending = s.pending
      ∧ (∀ x, (s.blockFoldDone).clm x = s.clm x)
      ∧ (∀ x, (s.blockFoldDone).presence x = s.presence x) := by
  unfold State.blockFoldDone
  split <;> simp [State.presence]
  intro x; cases x <;> rfl

/-- SET-TIMING changes the timing and the greet timers alone (R188). -/
@[simp] theorem State.setTiming_frame (s : State) (p : Parameter) (v : Nat) :
    (s.setTiming p v).lines = s.lines
      ∧ (s.setTiming p v).power = s.power
      ∧ (s.setTiming p v).clock = s.clock
      ∧ (s.setTiming p v).rouse = s.rouse
      ∧ (s.setTiming p v).ru = s.ru
      ∧ (s.setTiming p v).ng = s.ng
      ∧ (s.setTiming p v).su = s.su
      ∧ (s.setTiming p v).eqm = s.eqm
      ∧ (s.setTiming p v).discards = s.discards
      ∧ (s.setTiming p v).free = s.free
      ∧ (s.setTiming p v).pending = s.pending
      ∧ (∀ x, (s.setTiming p v).presence x = s.presence x)
      ∧ (s.setTiming p v).cu = { s.cu with timing := s.cu.timing.set v p } := by
  simp only [State.setTiming]
  split <;> simp [State.presence]

/-! ## The waiting commands -/

/-- No output and no event touches the commands that wait (log 17). -/
theorem stateClosed_pending (l : List Instr) : StateClosed (fun s => s.pending = l) where
  books _ _ _ _ _ h := h
  offer s p c e _ h := by simpa using h
  arbitrate s p h := by simpa using h
  tick _ h := h
  wakeInput _ _ h := h
  presenceAsserted s e _ h := by simpa using h
  presenceNegated s e _ h := by simpa using h
  capture _ _ _ h := h
  wake s _ h := by simpa using h
  settleExpired s e _ h := by simpa using h
  greetExpired s e _ h := by simpa using h
  fadeExpired s e _ h := by simpa using h
  rouseExpired s e _ h := by simpa using h
  validGreet s e g h := by simpa using h
  completed s p h := by
    simp only [State.completed]
    split
    · exact h
    · split
      · split
        · simpa using h
        · exact h
      · exact h
      · exact h
  cmdSleep s r h := by
    simp only [State.cmdSleep]
    split
    · simpa using h
    · split
      · simpa using h
      · split <;> simpa using h
  restarted s h := by simpa [State.restarted] using h
  poweredOn _ h := h
  identity s w _ h := by simpa using h
  report _ h := h
  hold _ _ h := h
  rule _ _ _ _ _ _ h := h
  policy _ _ _ h := h
  timing s p v _ _ h := by simpa using h
  emptied _ h := h
  opened _ _ _ _ h := h
  loaded _ _ _ _ _ _ _ _ _ h := h
  confirming _ _ _ _ _ _ _ h := h
  folded s h := by simpa using h
  confirmed _ _ _ _ _ _ _ h := h
  graceEnded _ h := h
  changeover s b r _ h := by simpa using h
  interpret s f h := by simpa using h

/-- Settles O3: no arm answers a fault or a refusal, and `stateClosed_pending` keeps the queue. -/
theorem everyCommandCompletes : Obligations.EveryCommandCompletes := by
  intro i s
  have hnext : ∃ t, exec i s = .next t := by cases i <;> exact ⟨_, rfl⟩
  obtain ⟨t, ht⟩ := hnext
  exact ⟨t, ht, (stateClosed_pending s.pending).exec rfl ht⟩

end Sys2Proof.Machine
end

section
/-! The cell pool over a step (R152). -/

namespace Sys2Proof.Machine

/-- Each operation of the queue manager keeps the 768 cells, by its lemma of the cell pool. -/
theorem eqmClosed_total : EqmClosed (fun q => q.total = 768) where
  admitCopy q j m p c e h := by rw [Eqm.admitCopy_total, h]
  purge q p c r h := by rw [Eqm.purgeQueue_total, h]
  abort q p h := by rw [Eqm.abortLost_total, h]
  abandon q p h := by rw [Eqm.abandonLinkControl_total, h]
  reevaluate s h := by rw [State.evaluateQueues_total, h]
  begin s p x hidle hpick h := by
    have hstart : s.arbitrate p = s.begin p x := by simp [State.arbitrate, hidle, hpick]
    rw [← hstart, State.arbitrate_total, h]
  complete q p t ht h := by
    have hheld := q.setTx_held p none
    simp only [ht, txCells] at hheld
    simp only [Eqm.total, Eqm.heldCells_freeCells] at h ⊢
    omega
  emptied _ _ := rfl
  powerOn := rfl
  readOvertaken _ h := h
  setHold _ _ h := h

/-- Settles O53: `CellsConserved` is `Eqm.total` at 768, which every operation of the queue manager keeps. -/
theorem stepConservesCells : Obligations.StepConservesCells :=
  fun s t h hstep => eqmClosed_total.step s t h hstep

end Sys2Proof.Machine
end

section
/-! The egress queues (09): what an admission, a start, a purge and a re-evaluation do to the queues of the ports, and from it that the
queue limits (R154), the cyclic slots (R157) and the overtaken report (R160) keep within their bounds. -/

namespace Sys2Proof.Machine

/-! ## Queues put in place of others -/

@[simp] theorem PortQueues.setQueue_setQueue (x : PortQueues) (c : Cls) (l m : List Entry) :
    (x.setQueue c l).setQueue c m = x.setQueue c m := by cases c <;> rfl

@[simp] theorem Eqm.setQueue_setQueue (q : Eqm) (p : Port) (c : Cls) (l m : List Entry) :
    (q.setQueue p c l).setQueue p c m = q.setQueue p c m := by cases p <;> cases c <;> rfl

@[simp] theorem Eqm.setQueue_queue (q : Eqm) (p : Port) (c : Cls) : q.setQueue p c (q.queue p c) = q := by
  cases p <;> cases c <;> rfl

theorem Eqm.setQueue_comm (q : Eqm) {p p' : Port} (h : p' ≠ p) (c c' : Cls) (l l' : List Entry) :
    (q.setQueue p c l).setQueue p' c' l' = (q.setQueue p' c' l').setQueue p c l := by
  cases p <;> cases p' <;> first | rfl | exact absurd rfl h

@[simp] theorem Eqm.setQueue_overtaken (q : Eqm) (p : Port) (c : Cls) (l : List Entry) :
    (q.setQueue p c l).overtaken = q.overtaken := by cases p <;> rfl

theorem Eqm.setQueue_withFreeCells (q : Eqm) (p : Port) (c : Cls) (l : List Entry) (n : Nat) :
    { q with freeCells := n }.setQueue p c l = { q.setQueue p c l with freeCells := n } := by cases p <;> rfl

@[simp] theorem Eqm.queue_withFreeCells (q : Eqm) (p : Port) (c : Cls) (n : Nat) :
    { q with freeCells := n }.queue p c = q.queue p c := by cases p <;> rfl

@[simp] theorem Eqm.port_withFreeCells (q : Eqm) (p : Port) (n : Nat) : { q with freeCells := n }.port p = q.port p := by
  cases p <;> rfl

theorem Eqm.enterOvertaken_setQueue (q : Eqm) (k : CyclicKey) (p p' : Port) (c : Cls) (l : List Entry) :
    (q.setQueue p' c l).enterOvertaken k p = (q.enterOvertaken k p).setQueue p' c l := by
  unfold Eqm.enterOvertaken
  rw [Eqm.setQueue_overtaken]
  split
  · cases p' <;> rfl
  · split <;> cases p' <;> rfl

/-! ## What an admission does to the queues (R155 to R159) -/

/-- The queue manager after a copy was offered for admission: as before; with the copy in the place of the one that held its key; with
the copy at the tail of its queue and the one that held its key gone from its own; or with the copy at the tail. -/
inductive Eqm.Admission (q : Eqm) (p : Port) (c : Cls) (e : Entry) : Eqm → Prop
  | refused : Admission q p c e q
  | inPlace (k : CyclicKey) (old : Entry) (n : Nat) (hk : e.key = some k) (hold : (q.queue p c).find? (Entry.hasKey k) = some old) :
      Admission q p c e ({ q.setQueue p c (replaceHolder k e (q.queue p c)) with freeCells := n }.enterOvertaken k p)
  | across (k : CyclicKey) (oc : Cls) (old : Entry) (n : Nat) (hk : e.key = some k)
      (hold : (q.queue p oc).find? (Entry.hasKey k) = some old) (hne : oc ≠ c) (hlen : (q.queue p c).length < c.limit) :
      Admission q p c e
        ({ (q.setQueue p oc (removeHolder k (q.queue p oc))).setQueue p c (q.queue p c ++ [e]) with
            freeCells := n }.enterOvertaken k p)
  | tail (n : Nat) (hfree : ∀ k, e.key = some k → (q.port p).holder k = none) (hlen : (q.queue p c).length < c.limit)
      (hslot : e.key.isSome = true → (q.port p).slotsHeld < slotCount) :
      Admission q p c e { q.setQueue p c (q.queue p c ++ [e]) with freeCells := n }

theorem Eqm.queue_setQueue_of_ne (q : Eqm) (p : Port) {c c' : Cls} (h : c' ≠ c) (l : List Entry) :
    (q.setQueue p c l).queue p c' = q.queue p c' := by
  rw [Eqm.queue_setQueue, if_neg fun hc => h hc.2]

theorem Eqm.replace_admission (q : Eqm) (p : Port) (k : CyclicKey) (oc : Cls) (old : Entry) (c : Cls) (e : Entry)
    (hk : e.key = some k) (hold : (q.queue p oc).find? (Entry.hasKey k) = some old) :
    q.Admission p c e (q.replace p k oc old c e).1 := by
  unfold Eqm.replace
  split
  · rename_i hc
    subst hc
    split
    · exact .inPlace k old _ hk hold
    · exact .refused
  · split
    · exact .refused
    · split
      · exact .refused
      · rename_i hne hlen _
        have hq := q.queue_setQueue_of_ne p (Ne.symm hne) (removeHolder k (q.queue p oc))
        have := Admission.across (q := q) k oc old
          (((q.setQueue p oc (removeHolder k (q.queue p oc))).setQueue p c (q.queue p c ++ [e])).freeCells + old.cells - e.cells)
          hk hold hne (by omega)
        simpa only [hq] using this

theorem Eqm.admitUp_admission (q : Eqm) (p : Port) (c : Cls) (e : Entry) : q.Admission p c e (q.admitUp p c e).1 := by
  unfold Eqm.admitUp
  split
  · rename_i k oc old h
    obtain ⟨hk, hold⟩ := Eqm.holderFor_some _ _ _ _ _ _ h
    exact Eqm.replace_admission q p k oc old c e hk hold
  · rename_i hnone
    split
    · exact .refused
    · split
      · exact .refused
      · split
        · exact .refused
        · rename_i hlen _ hslot
          refine .tail _ (fun k hk => ?_) (by omega) (fun hs => by refine Classical.byContradiction fun hn => ?_; exact hslot ⟨hs, by omega⟩)
          unfold Eqm.holderFor at hnone
          rw [hk] at hnone
          dsimp only at hnone
          split at hnone
          · assumption
          · cases hnone

/-- What an admission does: it refuses and leaves the queues, or the port takes the copy (R155). -/
theorem Eqm.admitCopy_cases (q : Eqm) (j m : Bool) (p : Port) (c : Cls) (e : Entry) :
    (q.admitCopy j m p c e).1 = q
      ∨ (j = true ∧ (e.frame.kind.isData = true → m = true) ∧ q.Admission p c e (q.admitCopy j m p c e).1) := by
  unfold Eqm.admitCopy
  split
  · exact .inl rfl
  · split
    · exact .inl rfl
    · rename_i hj hm
      exact .inr ⟨by simpa using hj, fun hd => by simpa [hd] using hm, q.admitUp_admission p c e⟩

/-- Every admission is one of the four. -/
theorem Eqm.admitCopy_admission (q : Eqm) (j m : Bool) (p : Port) (c : Cls) (e : Entry) :
    q.Admission p c e (q.admitCopy j m p c e).1 := by
  rcases q.admitCopy_cases j m p c e with h | ⟨-, -, h⟩
  · rw [h]
    exact .refused
  · exact h

/-! ## What takes from the queues and adds nothing: purges, aborts, starts, completions and entry to DORMANT -/

/-- Every queue of `r` holds copies of that of `q` alone, in their order, and the overtaken report is that of `q`. -/
def Eqm.Shrinks (q r : Eqm) : Prop := (∀ p c, (r.queue p c).Sublist (q.queue p c)) ∧ r.overtaken = q.overtaken

theorem Eqm.shrinks_of_queues {q r : Eqm} (h : ∀ p c, r.queue p c = q.queue p c) (ho : r.overtaken = q.overtaken) : q.Shrinks r :=
  ⟨fun p c => h p c ▸ List.Sublist.refl _, ho⟩

theorem Eqm.shrinks_setQueue (q : Eqm) (p : Port) (c : Cls) {l : List Entry} (h : l.Sublist (q.queue p c)) :
    q.Shrinks (q.setQueue p c l) := by
  refine ⟨fun p' c' => ?_, by simp⟩
  rw [Eqm.queue_setQueue]
  split
  · rename_i hpc
    rw [hpc.1, hpc.2]
    exact h
  · exact .refl _

@[simp] theorem Eqm.queue_setTx (q : Eqm) (p p' : Port) (c : Cls) (t : Option Tx) :
    (q.setPort p { q.port p with tx := t }).queue p' c = q.queue p' c := by
  cases p <;> cases p' <;> cases c <;> rfl

@[simp] theorem Eqm.queue_send (q : Eqm) (p p' : Port) (c : Cls) (t : Tx) : (q.send p t).queue p' c = q.queue p' c :=
  q.queue_setTx p p' c (some t)

theorem Eqm.purgeQueue_shrinks (q : Eqm) (p : Port) (c : Cls) (r : Reason) : q.Shrinks (q.purgeQueue p c r).1 :=
  q.shrinks_setQueue p c (List.nil_sublist _)

@[simp] theorem Eqm.queue_abortLost (q : Eqm) (p p' : Port) (c : Cls) : (q.abortLost p).1.queue p' c = q.queue p' c := by
  unfold Eqm.abortLost
  split
  · rw [Eqm.queue_withFreeCells, Eqm.queue_setTx]
  · rfl

@[simp] theorem Eqm.queue_abandonLinkControl (q : Eqm) (p p' : Port) (c : Cls) :
    (q.abandonLinkControl p).queue p' c = q.queue p' c := by
  unfold Eqm.abandonLinkControl
  split <;> simp

@[simp] theorem Eqm.overtaken_abandonLinkControl (q : Eqm) (p : Port) : (q.abandonLinkControl p).overtaken = q.overtaken := by
  unfold Eqm.abandonLinkControl
  split <;> simp

theorem Eqm.abortLost_shrinks (q : Eqm) (p : Port) : q.Shrinks (q.abortLost p).1 := by
  refine Eqm.shrinks_of_queues (fun p' c => q.queue_abortLost p p' c) ?_
  unfold Eqm.abortLost
  split <;> simp

theorem Eqm.abandonLinkControl_shrinks (q : Eqm) (p : Port) : q.Shrinks (q.abandonLinkControl p) :=
  Eqm.shrinks_of_queues (fun p' c => q.queue_abandonLinkControl p p' c) (by simp)

theorem State.begin_shrinks (s : State) (p : Port) (x : Pick) : s.eqm.Shrinks (s.begin p x).eqm := by
  cases x with
  | rouse e => exact Eqm.shrinks_of_queues (fun p' c => by simp [State.begin]) (by simp [State.begin, Eqm.send])
  | greet e => exact Eqm.shrinks_of_queues (fun p' c => by simp [State.begin]) (by simp [State.begin, Eqm.send])
  | front c y =>
    have h := s.eqm.shrinks_setQueue p c (List.tail_sublist (s.eqm.queue p c))
    exact ⟨fun p' c' => by simpa [State.begin] using h.1 p' c', by simp [State.begin, Eqm.send]⟩

theorem Eqm.emptied_queue (q : Eqm) (p : Port) (c : Cls) : q.emptied.queue p c = [] := by cases p <;> cases c <;> rfl

theorem Eqm.emptied_shrinks (q : Eqm) : q.Shrinks q.emptied :=
  ⟨fun p c => by simp [Eqm.emptied_queue], rfl⟩

/-- A property of the queue manager that an admission, a re-evaluation and a shrinking keep, every operation keeps. -/
theorem eqmClosed_of_shrinks {P : Eqm → Prop} (hadmit : ∀ q p c e r, q.Admission p c e r → P q → P r)
    (hreevaluate : ∀ s : State, P s.eqm → P (s.evaluateQueues s.eqm reevaluationOrder s.eqm []).1)
    (hshrink : ∀ q r, q.Shrinks r → P q → P r) (hpowerOn : P Eqm.powerOn)
    (hread : ∀ q : Eqm, P q → P { q with overtaken := [], overflow := false }) : EqmClosed P where
  admitCopy q j m p c e := hadmit q p c e _ (q.admitCopy_admission j m p c e)
  purge q p c r := hshrink q _ (q.purgeQueue_shrinks p c r)
  abort q p := hshrink q _ (q.abortLost_shrinks p)
  abandon q p := hshrink q _ (q.abandonLinkControl_shrinks p)
  reevaluate := hreevaluate
  begin s p x _ _ := hshrink _ _ (s.begin_shrinks p x)
  complete q p t _ := hshrink q _
    (Eqm.shrinks_of_queues (fun p' c => by rw [Eqm.queue_withFreeCells, Eqm.queue_setTx]) (by simp))
  emptied q := hshrink q _ q.emptied_shrinks
  powerOn := hpowerOn
  readOvertaken := hread
  setHold q h := hshrink q _ (Eqm.shrinks_of_queues (fun p c => by cases p <;> rfl) rfl)

/-! ## Re-evaluation, frame by frame (R116 to R120) -/

/-- The queue manager in a walk with the frames in hand put back: those kept, those still to be evaluated, and what stands behind. -/
def Walk.whole (w : Walk) (p : Port) (c : DataClass) (rest : List Entry) : Eqm :=
  w.eqm.setQueue p c.toCls (w.kept.reverse ++ rest ++ w.eqm.queue p c.toCls)

/-- A property of the queue manager that every treatment of one frame keeps: it stays in its place with its translated header, it is
discarded, its key is entered in the report, or it moves to the tail of the queue of another port. -/
structure WalkClosed (P : Eqm → Prop) : Prop where
  reframe : ∀ (q : Eqm) (p : Port) (c : DataClass) (l m : List Entry) (e : Entry) (f : Frame),
    P (q.setQueue p c.toCls (l ++ e :: m)) → P (q.setQueue p c.toCls (l ++ { e with frame := f } :: m))
  drop : ∀ (q : Eqm) (p : Port) (c : DataClass) (l m : List Entry) (e : Entry) (n : Nat),
    P (q.setQueue p c.toCls (l ++ e :: m)) → P { q.setQueue p c.toCls (l ++ m) with freeCells := n }
  note : ∀ (q : Eqm) (k : CyclicKey) (p : Port), P q → P (q.enterOvertaken k p)
  move : ∀ (q : Eqm) (p p' : Port) (c : DataClass) (l m : List Entry) (e : Entry) (f : Frame), p' ≠ p →
    q.moveRefusal p' c.toCls { e with frame := f } = none → P (q.setQueue p c.toCls (l ++ e :: m)) →
    P ((q.setQueue p c.toCls (l ++ m)).setQueue p' c.toCls (q.queue p' c.toCls ++ [{ e with frame := f }]))

namespace WalkClosed

variable {P : Eqm → Prop} (k : WalkClosed P)
include k

theorem noteOvertaken {q : Eqm} (r : Reason) (p : Port) (e : Entry) (h : P q) : P (q.noteOvertaken r p e) := by
  unfold Eqm.noteOvertaken
  split
  · exact k.note _ _ _ h
  · exact h

omit k in
theorem noteOvertaken_setQueue (q : Eqm) (r : Reason) (p p' : Port) (c : Cls) (e : Entry) (l : List Entry) :
    (q.noteOvertaken r p e).setQueue p' c l = (q.setQueue p' c l).noteOvertaken r p e := by
  unfold Eqm.noteOvertaken
  split
  · rw [Eqm.enterOvertaken_setQueue]
  · rfl

omit k in
@[simp] theorem queue_noteOvertaken (q : Eqm) (r : Reason) (p p' : Port) (c : Cls) (e : Entry) :
    (q.noteOvertaken r p e).queue p' c = q.queue p' c := by
  unfold Eqm.noteOvertaken
  split <;> simp

theorem evaluate (s : State) (p : Port) (c : DataClass) (w : Walk) (e : Entry) (rest : List Entry)
    (h : P (w.whole p c (e :: rest))) : P ((s.evaluate p c w e).whole p c rest) := by
  have hin : P (w.eqm.setQueue p c.toCls (w.kept.reverse ++ e :: (rest ++ w.eqm.queue p c.toCls))) := by
    simpa [Walk.whole] using h
  unfold State.evaluate
  split
  · rename_i f _
    simpa [Walk.whole] using k.reframe _ _ _ _ _ _ f hin
  · have hdrop := k.drop _ _ _ _ _ _ (w.eqm.freeCells + e.cells) hin
    simpa [Walk.whole, Eqm.setQueue_withFreeCells] using hdrop
  · rename_i q f hv
    have hq : q ≠ p := ((s.verdict_length p c e).2 q f hv).2
    dsimp only
    split
    · rename_i r _
      have hdrop := k.noteOvertaken r q { e with frame := f } (k.drop _ _ _ _ _ _ (w.eqm.freeCells + e.cells) hin)
      simpa [Walk.whole, noteOvertaken_setQueue, Eqm.setQueue_withFreeCells] using hdrop
    · rename_i hr
      have hmove := k.move _ _ _ _ _ _ _ f hq hr hin
      rw [Eqm.setQueue_comm _ hq] at hmove
      simpa [Walk.whole, Eqm.queue_setQueue, Ne.symm hq] using hmove

theorem evaluate_fold (s : State) (p : Port) (c : DataClass) (l : List Entry) (w : Walk) (h : P (w.whole p c l)) :
    P ((l.foldl (s.evaluate p c) w).whole p c []) := by
  induction l generalizing w with
  | nil => exact h
  | cons e l ih => exact ih _ (k.evaluate s p c w e l h)

theorem evaluateQueue (s : State) (p : Port) (c : DataClass) (n : Nat) (q : Eqm) (lost : List Discard) (h : P q) :
    P (s.evaluateQueue p c n q lost).1 := by
  have hfold := k.evaluate_fold s p c ((q.queue p c.toCls).take n)
    { eqm := q.setQueue p c.toCls ((q.queue p c.toCls).drop n), kept := [], lost := lost } (by simpa [Walk.whole] using h)
  simpa [Walk.whole, State.evaluateQueue] using hfold

theorem evaluateQueues (s : State) (start : Eqm) (l : List (Port × DataClass)) (q : Eqm) (lost : List Discard) (h : P q) :
    P (s.evaluateQueues start l q lost).1 := by
  induction l generalizing q lost with
  | nil => exact h
  | cons x l ih => exact ih _ _ (k.evaluateQueue s x.1 x.2 _ q lost h)

end WalkClosed

/-- What the tests of R120 say of a move that they let through. -/
theorem Eqm.moveRefusal_none {q : Eqm} {p : Port} {c : Cls} {e : Entry} (h : q.moveRefusal p c e = none) :
    q.keyHeld p e = false ∧ (q.queue p c).length < c.limit ∧ (e.key.isSome = true → (q.port p).slotsHeld < slotCount) := by
  unfold Eqm.moveRefusal at h
  split at h
  · cases h
  · split at h
    · cases h
    · split at h
      · cases h
      · split at h
        · cases h
        · rename_i _ hkey hlen hslot
          exact ⟨by simpa using hkey, by omega, fun hs => by refine Classical.byContradiction fun hn => ?_; exact hslot ⟨hs, by omega⟩⟩

/-! ## The queue limits (R154) -/

theorem length_replaceHolder (k : CyclicKey) (e : Entry) (l : List Entry) : (replaceHolder k e l).length = l.length := by
  induction l with
  | nil => rfl
  | cons x l ih =>
    simp only [replaceHolder]
    split
    · rfl
    · simp [ih]

theorem removeHolder_sublist (k : CyclicKey) (l : List Entry) : (removeHolder k l).Sublist l := by
  induction l with
  | nil => exact .refl _
  | cons x l ih =>
    simp only [removeHolder]
    split
    · exact List.sublist_cons_self _ _
    · exact ih.cons_cons x

/-- The limits of R154, of a queue manager. -/
def Eqm.Bounded (q : Eqm) : Prop := ∀ p c, (q.queue p c).length ≤ c.limit

theorem Eqm.Bounded.shrink {q r : Eqm} (h : q.Bounded) (hr : q.Shrinks r) : r.Bounded :=
  fun p c => Nat.le_trans (hr.1 p c).length_le (h p c)

theorem Eqm.Bounded.setQueue {q : Eqm} (h : q.Bounded) (p : Port) {c : Cls} {l : List Entry} (hl : l.length ≤ c.limit) :
    (q.setQueue p c l).Bounded := by
  intro p' c'
  rw [Eqm.queue_setQueue]
  split
  · rename_i hpc
    rw [hpc.2]
    exact hl
  · exact h p' c'

theorem Eqm.Bounded.append {q : Eqm} (h : q.Bounded) (p : Port) {c : Cls} {l : List Entry} (hl : l.length < c.limit) (e : Entry) :
    (q.setQueue p c (l ++ [e])).Bounded := h.setQueue p (by rw [List.length_append]; exact hl)

theorem Eqm.Bounded.enterOvertaken {q : Eqm} (h : q.Bounded) (k : CyclicKey) (p : Port) : (q.enterOvertaken k p).Bounded :=
  fun p' c => by simpa using h p' c

theorem Eqm.Bounded.withFreeCells {q : Eqm} (h : q.Bounded) (n : Nat) : Eqm.Bounded { q with freeCells := n } :=
  fun p c => by simpa using h p c

theorem Eqm.Bounded.admission {q r : Eqm} {p : Port} {c : Cls} {e : Entry} (ha : q.Admission p c e r) (h : q.Bounded) : r.Bounded := by
  cases ha with
  | refused => exact h
  | inPlace k old n hk hold =>
    exact ((h.setQueue p (Nat.le_trans (Nat.le_of_eq (length_replaceHolder k e _)) (h p c))).withFreeCells n).enterOvertaken k p
  | across k oc old n hk hold hne hlen =>
    have hout := h.setQueue p (Nat.le_trans (removeHolder_sublist k (q.queue p oc)).length_le (h p oc))
    exact ((hout.append p hlen e).withFreeCells n).enterOvertaken k p
  | tail n hfree hlen hslot => exact (h.append p hlen e).withFreeCells n

theorem walkClosed_bounded : WalkClosed Eqm.Bounded where
  reframe q p c l m e f h := by
    have hl := h p c.toCls
    rw [Eqm.queue_setQueue_self] at hl
    simpa using h.setQueue p (c := c.toCls) (l := l ++ { e with frame := f } :: m) (by simpa using hl)
  drop q p c l m e n h := by
    have hs := (q.setQueue p c.toCls (l ++ e :: m)).shrinks_setQueue p c.toCls (l := l ++ m)
      (by simp)
    simpa using (h.shrink hs).withFreeCells n
  note q k p h := h.enterOvertaken k p
  move q p p' c l m e f hp hr h := by
    have hs := (q.setQueue p c.toCls (l ++ e :: m)).shrinks_setQueue p c.toCls (l := l ++ m) (by simp)
    have hout := h.shrink hs
    rw [Eqm.setQueue_setQueue] at hout
    exact hout.append p' (Eqm.moveRefusal_none hr).2.1 _

theorem eqmClosed_bounded : EqmClosed Eqm.Bounded :=
  eqmClosed_of_shrinks (fun _ _ _ _ _ ha h => h.admission ha)
    (fun s h => walkClosed_bounded.evaluateQueues s _ _ _ _ h) (fun _ _ hs h => h.shrink hs)
    (fun p c => by rw [show Eqm.powerOn.queue p c = [] from State.reset_queue p c]; exact Nat.zero_le _)
    (fun q h p c => by have := h p c; cases p <;> exact this)

/-! ## The cyclic slots (R157) -/

/-- The keys of a list of copies. -/
def keysOf (l : List Entry) : List CyclicKey := l.filterMap (fun e => e.key)

@[simp] theorem keysOf_nil : keysOf [] = [] := rfl

@[simp] theorem keysOf_append (l m : List Entry) : keysOf (l ++ m) = keysOf l ++ keysOf m := List.filterMap_append

theorem PortQueues.keys_eq (x : PortQueues) : x.keys = keysOf x.c0 ++ keysOf x.c1 ++ keysOf x.c2 ++ keysOf x.c3 := by
  simp [PortQueues.keys, PortQueues.entries, keysOf]

/-- The keys of a port are those of one queue and those of the others. -/
theorem PortQueues.keys_setQueue_perm (x : PortQueues) (c : Cls) (l : List Entry) :
    ((x.setQueue c l).keys).Perm (keysOf l ++ (x.setQueue c []).keys) := by
  rw [List.perm_iff_count]
  intro k
  cases c <;> simp only [PortQueues.keys_eq, PortQueues.setQueue, List.count_append, keysOf_nil, List.count_nil] <;> omega

theorem PortQueues.keys_setQueue_of_keys (x : PortQueues) (c : Cls) {l m : List Entry} (h : (keysOf l).Perm (keysOf m)) :
    ((x.setQueue c l).keys).Perm ((x.setQueue c m).keys) :=
  (x.keys_setQueue_perm c l).trans ((h.append_right _).trans (x.keys_setQueue_perm c m).symm)

/-- Each keyed copy holds one slot. -/
theorem slotsHeld_eq (x : PortQueues) : x.slotsHeld = x.keys.length := by
  unfold PortQueues.slotsHeld PortQueues.keys
  induction x.entries with
  | nil => rfl
  | cons e l ih => cases hk : e.key <;> simp [hk, ih]

theorem hasKey_iff (k : CyclicKey) (e : Entry) : e.hasKey k = true ↔ e.key = some k := by simp [Entry.hasKey]

theorem mem_keysOf {k : CyclicKey} {l : List Entry} : k ∈ keysOf l ↔ ∃ e ∈ l, e.key = some k := by simp [keysOf]

/-- A key without a holder is no key of the port. -/
theorem PortQueues.not_mem_keys_of_holder_none {x : PortQueues} {k : CyclicKey} (h : x.holder k = none) : k ∉ x.keys := by
  have hq (c : Cls) : k ∉ keysOf (x.queue c) := by
    have hnone := x.holder_none k h c
    rw [List.find?_eq_none] at hnone
    rw [mem_keysOf]
    rintro ⟨e, he, hk⟩
    exact hnone e he ((hasKey_iff k e).2 hk)
  rw [PortQueues.keys_eq]
  simp only [List.mem_append, not_or]
  exact ⟨⟨⟨hq .c0, hq .c1⟩, hq .c2⟩, hq .c3⟩

/-- A copy put in the place of the holder of its key leaves the keys as they are (R158). -/
theorem keysOf_replaceHolder {k : CyclicKey} {e : Entry} (hk : e.key = some k) (l : List Entry) :
    keysOf (replaceHolder k e l) = keysOf l := by
  induction l with
  | nil => rfl
  | cons x l ih =>
    simp only [replaceHolder]
    split
    · rename_i hx
      simp [keysOf, hk, (hasKey_iff k x).1 hx]
    · simp only [keysOf, List.filterMap_cons] at ih ⊢
      rw [ih]

/-- The holder of a key removed takes that key away (R159). -/
theorem keysOf_removeHolder {k : CyclicKey} {old : Entry} {l : List Entry} (h : l.find? (Entry.hasKey k) = some old) :
    (keysOf l).Perm (k :: keysOf (removeHolder k l)) := by
  induction l with
  | nil => cases h
  | cons x l ih =>
    cases hx : x.hasKey k with
    | true => simp [removeHolder, hx, keysOf, (hasKey_iff k x).1 hx]
    | false =>
      have hkeep : removeHolder k (x :: l) = x :: removeHolder k l := by simp [removeHolder, hx]
      rw [hkeep]
      have hperm := ih (by simpa [List.find?, hx] using h)
      cases hxk : x.key with
      | none => simpa [keysOf, hxk] using hperm
      | some j =>
        simp only [keysOf, List.filterMap_cons, hxk] at hperm ⊢
        exact (hperm.cons j).trans (List.Perm.swap k j _)

/-- R157 of one port: at most 64 keys, no two the same. -/
def PortQueues.KeysSound (x : PortQueues) : Prop := x.keys.length ≤ 64 ∧ x.keys.Nodup

theorem PortQueues.KeysSound.perm {x y : PortQueues} (h : x.KeysSound) (hp : x.keys.Perm y.keys) : y.KeysSound :=
  ⟨hp.length_eq ▸ h.1, hp.nodup_iff.1 h.2⟩

theorem PortQueues.KeysSound.sublist {x y : PortQueues} (h : x.KeysSound) (hs : y.keys.Sublist x.keys) : y.KeysSound :=
  ⟨Nat.le_trans hs.length_le h.1, h.2.sublist hs⟩

theorem PortQueues.keys_sublist {x y : PortQueues} (h : ∀ c, (y.queue c).Sublist (x.queue c)) : y.keys.Sublist x.keys := by
  simp only [PortQueues.keys_eq]
  exact ((((h .c0).filterMap _).append ((h .c1).filterMap _)).append ((h .c2).filterMap _)).append ((h .c3).filterMap _)

/-- The keys of a port with a copy at the tail of a queue. -/
theorem PortQueues.keys_append_perm (x : PortQueues) (c : Cls) (e : Entry) :
    ((x.setQueue c (x.queue c ++ [e])).keys).Perm (keysOf [e] ++ x.keys) := by
  have hself : x.setQueue c (x.queue c) = x := by cases c <;> rfl
  have h := x.keys_setQueue_perm c (x.queue c)
  rw [hself] at h
  refine (x.keys_setQueue_perm c _).trans ?_
  rw [keysOf_append]
  exact (List.perm_append_comm.append_right _).trans (by simpa [List.append_assoc] using h.symm.append_left (keysOf [e]))

/-- A copy whose key is free joins a queue while a slot is free. -/
theorem PortQueues.KeysSound.append {x : PortQueues} (h : x.KeysSound) (c : Cls) {e : Entry} (hfree : ∀ k, e.key = some k → k ∉ x.keys)
    (hslot : e.key.isSome = true → x.keys.length < 64) : (x.setQueue c (x.queue c ++ [e])).KeysSound := by
  have hperm := (x.keys_append_perm c e).symm
  cases hk : e.key with
  | none => exact h.perm (by simpa [keysOf, hk] using hperm)
  | some k =>
    have hcons : keysOf [e] ++ x.keys = k :: x.keys := by simp [keysOf, hk]
    rw [hcons] at hperm
    refine ⟨?_, hperm.nodup_iff.1 (List.nodup_cons.2 ⟨hfree k hk, h.2⟩)⟩
    have := hslot (by simp [hk])
    rw [← hperm.length_eq, List.length_cons]
    omega

/-- R157, of a queue manager. -/
def Eqm.SlotsSound (q : Eqm) : Prop := ∀ p, (q.port p).KeysSound

theorem Eqm.port_setQueue (q : Eqm) (p p' : Port) (c : Cls) (l : List Entry) :
    (q.setQueue p c l).port p' = if p' = p then (q.port p).setQueue c l else q.port p' := by
  cases p <;> cases p' <;> rfl

theorem Eqm.SlotsSound.setQueue {q : Eqm} (h : q.SlotsSound) (p : Port) {c : Cls} {l : List Entry}
    (hl : ((q.port p).setQueue c l).KeysSound) : (q.setQueue p c l).SlotsSound := by
  intro p'
  rw [Eqm.port_setQueue]
  split
  · exact hl
  · exact h p'

theorem Eqm.SlotsSound.enterOvertaken {q : Eqm} (h : q.SlotsSound) (k : CyclicKey) (p : Port) : (q.enterOvertaken k p).SlotsSound :=
  fun p' => by simpa using h p'

theorem Eqm.SlotsSound.withFreeCells {q : Eqm} (h : q.SlotsSound) (n : Nat) : Eqm.SlotsSound { q with freeCells := n } :=
  fun p => by simpa using h p

theorem Eqm.SlotsSound.shrink {q r : Eqm} (h : q.SlotsSound) (hr : q.Shrinks r) : r.SlotsSound :=
  fun p => (h p).sublist (PortQueues.keys_sublist (hr.1 p))

/-- A copy of the key of another takes that one's slot: the port holds the same keys after it (R158, R159). -/
theorem Eqm.SlotsSound.admission {q r : Eqm} {p : Port} {c : Cls} {e : Entry} (ha : q.Admission p c e r) (h : q.SlotsSound) :
    r.SlotsSound := by
  have hself (d : Cls) : (q.port p).setQueue d (q.queue p d) = q.port p := by cases d <;> rfl
  cases ha with
  | refused => exact h
  | inPlace k old n hk hold =>
    have hperm := (q.port p).keys_setQueue_of_keys c (List.Perm.of_eq (keysOf_replaceHolder hk (q.queue p c)).symm)
    rw [hself] at hperm
    exact ((h.setQueue p ((h p).perm hperm)).withFreeCells n).enterOvertaken k p
  | across k oc old n hk hold hne hlen =>
    have hout := (h.setQueue p (c := oc) (l := removeHolder k (q.queue p oc)) ((h p).sublist (PortQueues.keys_sublist fun d => by
      rw [PortQueues.queue_setQueue]
      split
      · rename_i hd
        rw [hd]
        exact removeHolder_sublist k (q.queue p oc)
      · exact .refl _)))
    have hkeys : (q.port p).keys.Perm (k :: ((q.port p).setQueue oc (removeHolder k (q.queue p oc))).keys) := by
      have h1 := (q.port p).keys_setQueue_perm oc (q.queue p oc)
      rw [hself] at h1
      refine h1.trans (((keysOf_removeHolder hold).append_right _).trans ?_)
      exact (((q.port p).keys_setQueue_perm oc _).cons k).symm
    have hport : (q.setQueue p oc (removeHolder k (q.queue p oc))).port p
        = (q.port p).setQueue oc (removeHolder k (q.queue p oc)) := by simp [Eqm.port_setQueue]
    have hin := hout.setQueue p (c := c) (l := q.queue p c ++ [e]) (by
      rw [hport]
      have hqueue : q.queue p c = ((q.port p).setQueue oc (removeHolder k (q.queue p oc))).queue c := by
        rw [PortQueues.queue_setQueue, if_neg (Ne.symm hne), Eqm.queue]
      rw [hqueue]
      have hnodup := hkeys.nodup_iff.1 (h p).2
      refine (hport ▸ hout p).append c (fun j hj => ?_) (fun _ => ?_)
      · rw [hk] at hj
        cases hj
        exact (List.nodup_cons.1 hnodup).1
      · have := (h p).1
        rw [hkeys.length_eq, List.length_cons] at this
        omega)
    exact (hin.withFreeCells n).enterOvertaken k p
  | tail n hfree hlen hslot =>
    refine (h.setQueue p ((h p).append c (fun k hk => PortQueues.not_mem_keys_of_holder_none (hfree k hk)) fun hs => ?_)).withFreeCells n
    simpa [slotsHeld_eq, slotCount] using hslot hs

/-- A key that holds no slot is no key of the port (R120). -/
theorem Eqm.not_mem_keys_of_keyHeld {q : Eqm} {p : Port} {e : Entry} (h : q.keyHeld p e = false) {k : CyclicKey} (hk : e.key = some k) :
    k ∉ (q.port p).keys := by
  refine PortQueues.not_mem_keys_of_holder_none ?_
  cases hh : (q.port p).holder k with
  | none => rfl
  | some x => simp [Eqm.keyHeld, Eqm.holderFor, hk, hh] at h

theorem walkClosed_slots : WalkClosed Eqm.SlotsSound where
  reframe q p c l m e f h := by
    have hp := h p
    rw [Eqm.port_setQueue, if_pos rfl] at hp
    have hsame : keysOf (l ++ e :: m) = keysOf (l ++ { e with frame := f } :: m) := by simp [keysOf, List.filterMap_cons]
    have hperm := (q.port p).keys_setQueue_of_keys c.toCls (List.Perm.of_eq hsame)
    have hset := h.setQueue p (c := c.toCls) (l := l ++ { e with frame := f } :: m)
      (by rw [Eqm.port_setQueue, if_pos rfl, PortQueues.setQueue_setQueue]; exact hp.perm hperm)
    rwa [Eqm.setQueue_setQueue] at hset
  drop q p c l m e n h := by
    have hs := (q.setQueue p c.toCls (l ++ e :: m)).shrinks_setQueue p c.toCls (l := l ++ m) (by simp)
    simpa using (h.shrink hs).withFreeCells n
  note q k p h := h.enterOvertaken k p
  move q p p' c l m e f hp hr h := by
    obtain ⟨hkey, -, hslot⟩ := Eqm.moveRefusal_none hr
    have hs := (q.setQueue p c.toCls (l ++ e :: m)).shrinks_setQueue p c.toCls (l := l ++ m) (by simp)
    have hout := h.shrink hs
    rw [Eqm.setQueue_setQueue] at hout
    have hport : (q.setQueue p c.toCls (l ++ m)).port p' = q.port p' := by rw [Eqm.port_setQueue, if_neg hp]
    refine hout.setQueue p' ?_
    rw [hport]
    refine (hport ▸ hout p').append c.toCls (fun k hk => Eqm.not_mem_keys_of_keyHeld hkey hk) fun hs' => ?_
    simpa [slotsHeld_eq, slotCount] using hslot hs'

theorem eqmClosed_slots : EqmClosed Eqm.SlotsSound :=
  eqmClosed_of_shrinks (fun _ _ _ _ _ ha h => h.admission ha)
    (fun s h => walkClosed_slots.evaluateQueues s _ _ _ _ h) (fun _ _ hs h => h.shrink hs)
    (fun p => by rw [show Eqm.powerOn.port p = .empty from State.reset_port p]; exact ⟨Nat.zero_le _, .nil⟩)
    (fun q h p => by have := h p; cases p <;> exact this)

/-! ## The overtaken report (R160) -/

/-- R160, of a queue manager. -/
def Eqm.ReportSound (q : Eqm) : Prop :=
  q.overtaken.length ≤ 16 ∧ (q.overtaken.map (fun e => (e.key, e.port))).Nodup ∧ ∀ e ∈ q.overtaken, 1 ≤ e.count ∧ e.count ≤ 255

theorem Eqm.ReportSound.of_overtaken {q r : Eqm} (h : q.ReportSound) (hr : r.overtaken = q.overtaken) : r.ReportSound := by
  rwa [Eqm.ReportSound, hr]

theorem OvertakenEntry.isFor_iff (k : CyclicKey) (p : Port) (e : OvertakenEntry) : e.isFor k p = true ↔ e.key = k ∧ e.port = p := by
  simp [OvertakenEntry.isFor]

theorem Eqm.ReportSound.enterOvertaken {q : Eqm} (h : q.ReportSound) (k : CyclicKey) (p : Port) : (q.enterOvertaken k p).ReportSound := by
  obtain ⟨hlen, hnodup, hcount⟩ := h
  unfold Eqm.enterOvertaken
  split
  · refine ⟨by simpa using hlen, ?_, ?_⟩
    · have hsame : (q.overtaken.map (fun e => if e.isFor k p then e.raise else e)).map (fun e => (e.key, e.port))
          = q.overtaken.map (fun e => (e.key, e.port)) := by
        rw [List.map_map]
        refine List.map_congr_left fun e _ => ?_
        by_cases hf : e.isFor k p = true <;> simp [hf, OvertakenEntry.raise]
      exact hsame ▸ hnodup
    · intro e he
      obtain ⟨x, hx, rfl⟩ := List.mem_map.1 he
      have := hcount x hx
      split
      · simp only [OvertakenEntry.raise]
        split <;> omega
      · exact this
  · rename_i hnew
    split
    · rename_i hroom
      refine ⟨by rw [List.length_append]; exact hroom, ?_, ?_⟩
      · rw [List.map_append, List.nodup_append]
        refine ⟨hnodup, by simp, ?_⟩
        intro x hx y hy hxy
        obtain ⟨e, he, rfl⟩ := List.mem_map.1 hx
        simp only [List.map_cons, List.map_nil, List.mem_singleton, ← hxy, Prod.mk.injEq] at hy
        exact hnew (List.any_eq_true.2 ⟨e, he, (OvertakenEntry.isFor_iff k p e).2 hy⟩)
      · intro e he
        rcases List.mem_append.1 he with he | he
        · exact hcount e he
        · rw [List.mem_singleton.1 he]
          simp
    · exact ⟨hlen, hnodup, hcount⟩

theorem Eqm.ReportSound.admission {q r : Eqm} {p : Port} {c : Cls} {e : Entry} (ha : q.Admission p c e r) (h : q.ReportSound) :
    r.ReportSound := by
  cases ha with
  | refused => exact h
  | inPlace k old n hk hold => exact (h.of_overtaken (by simp)).enterOvertaken k p
  | across k oc old n hk hold hne hlen => exact (h.of_overtaken (by simp)).enterOvertaken k p
  | tail n hfree hlen hslot => exact h.of_overtaken (by simp)

theorem walkClosed_report : WalkClosed Eqm.ReportSound where
  reframe q p c l m e f h := h.of_overtaken (by simp)
  drop q p c l m e n h := h.of_overtaken (by simp)
  note q k p h := h.enterOvertaken k p
  move q p p' c l m e f _ _ h := h.of_overtaken (by simp)

theorem eqmClosed_report : EqmClosed Eqm.ReportSound :=
  eqmClosed_of_shrinks (fun _ _ _ _ _ ha h => h.admission ha)
    (fun s h => walkClosed_report.evaluateQueues s _ _ _ _ h) (fun _ _ hs h => h.of_overtaken hs.2)
    ⟨Nat.zero_le _, .nil, nofun⟩ (fun _ _ => ⟨Nat.zero_le _, .nil, nofun⟩)

/-- Settles O54: the three bounds are kept by admissions, by shrinking queues and by every treatment of a frame in a re-evaluation. -/
theorem stepKeepsQueueLimitsAndSlots : Obligations.StepKeepsQueueLimitsAndSlots :=
  fun s t hstep => ⟨fun h => eqmClosed_bounded.step s t h hstep, fun h => eqmClosed_slots.step s t h hstep,
    fun h => eqmClosed_report.step s t h hstep⟩

end Sys2Proof.Machine
end

section
/-! The coupler link monitors (02): what each event makes of the link monitor of an end, said once, and from it that every step keeps the
table of R19 and the counts, timing parameters and rules in their ranges. -/

namespace Sys2Proof.Machine

/-! ## What each operation makes of the link monitors -/

theorem State.settleIfReady_clm (s : State) (e e' : End) :
    (s.settleIfReady e).clm e' =
      if e' = e ∧ (s.clm e).link = .dark ∧ s.presence e = true ∧ s.cu.loaded = true then (s.clm e).enterSettling s.cu.timing
      else s.clm e' := by
  unfold State.settleIfReady
  split
  · rename_i h
    rw [State.clm_setClm]
    simp only [h, and_true]
  · rename_i h
    rw [if_neg fun h' => h h'.2]

/-- The darkened monitor reads the presence level, the identity and the settle time alone. -/
theorem State.darkened_congr {s t : State} {e : End} (hp : t.presence e = s.presence e) (hc : t.cu = s.cu) (last : LastChange) :
    t.darkened e last = s.darkened e last := by
  simp only [State.darkened, hp, hc]

theorem State.clm_withEqm (s : State) (q : Eqm) (e : End) : ({ s with eqm := q } : State).clm e = s.clm e := by cases e <;> rfl

theorem State.presence_withEqm (s : State) (q : Eqm) (e : End) : ({ s with eqm := q } : State).presence e = s.presence e := by
  cases e <;> rfl

/-- Entry to DARK with the test of R29. -/
theorem State.enterDark_clm (s : State) (e e' : End) :
    (s.enterDark e).clm e' = if e' = e then s.darkened e (s.clm e).lastChange else s.clm e' := by
  unfold State.enterDark
  rw [State.settleIfReady_clm, State.clm_withEqm _ _ e, State.clm_withEqm _ _ e', State.presence_withEqm, State.clm_setClm_self,
    State.setClm_presence, State.clm_setClm]
  simp only [State.setClm_cu, State.darkened]
  by_cases he : e' = e
  · simp only [he, if_true, true_and]
    by_cases hr : s.presence e = true ∧ s.cu.loaded = true
    · rw [if_pos hr, if_pos ⟨rfl, hr⟩]
      rfl
    · rw [if_neg hr, if_neg fun h => hr h.2]
      rfl
  · simp [he]

/-- Entry to LISTEN. -/
theorem State.enterListen_clm (s : State) (e e' : End) :
    (s.enterListen e).clm e' = if e' = e then .rest .listen none (s.clm e).lastChange else s.clm e' := by
  cases e <;> cases e' <;> rfl

/-- Waking darkens both links (R56). -/
theorem State.wake_clm (s : State) (e : End) : s.wake.clm e = s.darkened e (s.clm e).lastChange := by
  have hactive (e : End) : ({ s with power := .active } : State).clm e = s.clm e := by cases e <;> rfl
  have hpresence (e : End) : ({ s with power := .active } : State).presence e = s.presence e := by cases e <;> rfl
  have hboth : s.wake.clm e = ((({ s with power := .active } : State).enterDark .a).enterDark .b).clm e := by
    simp [State.wake]
  rw [hboth]
  cases e
  · rw [State.enterDark_clm, if_neg (by decide), State.enterDark_clm, if_pos rfl, hactive]
    exact State.darkened_congr (hpresence .a) rfl _
  · rw [State.enterDark_clm, if_pos rfl, State.enterDark_clm, if_neg (by decide), hactive]
    exact State.darkened_congr (by simp [hpresence]) (by simp) _

/-- A part gone to sleep listens on both links (R46). -/
theorem State.enterDormant_clm (s : State) (e : End) : s.enterDormant.clm e = .rest .listen none (s.clm e).lastChange := by
  have hboth : s.enterDormant.clm e = ((s.enterListen .a).enterListen .b).clm e := by cases e <;> rfl
  rw [hboth]
  cases e
  · rw [State.enterListen_clm, if_neg (by decide), State.enterListen_clm, if_pos rfl]
  · rw [State.enterListen_clm, if_pos rfl, State.enterListen_clm, if_neg (by decide)]

/-- A link monitor in GREETING (R31): what an entry leaves of the monitor before is the last-change capture and a pending ROUSE. -/
def Clm.greeting (t : Timing) (cand : Option Candidate) (last : LastChange) (rouse : Bool) : Clm :=
  { link := .greeting, settle := none, greet := startMs t.greetPeriod, fade := none, rouse := none, answerCount := 0
    silenceCount := 0, rouseCount := 0, greetHeard := false, neighbour := none, candidate := cand, lastChange := last
    slot := { greet := true, rouse := rouse } }

theorem Clm.enterGreeting_eq (c : Clm) (t : Timing) (cand : Option Candidate) :
    c.enterGreeting t cand = .greeting t cand c.lastChange c.slot.rouse := rfl

/-- The monitor after the loss of its link (R42): GREETING from JOINED, DARK or SETTLING from FADING. -/
def State.lostClm (s : State) (e : End) (cause : LossCause) (cand : Option Candidate) : Clm :=
  if (s.clm e).link = .fading then s.darkened e { clock := s.clock, cause := cause }
  else .greeting s.cu.timing cand { clock := s.clock, cause := cause } (s.clm e).slot.rouse

theorem State.loseToDark_clm (s : State) (e e' : End) (cause : LossCause) :
    (s.loseToDark e cause).clm e' = if e' = e then s.darkened e { clock := s.clock, cause := cause } else s.clm e' := by
  have hframe : (s.loseToDark e cause).clm e' = ((s.setClm e ((s.clm e).lose s.clock cause)).enterDark e).clm e' := by
    simp [State.loseToDark]
  rw [hframe, State.enterDark_clm, State.clm_setClm_self, State.clm_setClm]
  split
  · exact State.darkened_congr (by simp) (by simp) _
  · rfl

/-- A loss changes the link monitor of its end alone. -/
theorem State.lose_clm (s : State) (e e' : End) (cause : LossCause) (cand : Option Candidate) :
    (s.lose e cause cand).clm e' = if e' = e then s.lostClm e cause cand else s.clm e' := by
  unfold State.lose State.lostClm
  split
  · rw [State.loseToDark_clm]
  · have hframe : (s.loseToGreeting e cause cand).clm e'
        = (s.setClm e (((s.clm e).lose s.clock cause).enterGreeting s.cu.timing cand)).clm e' := by simp [State.loseToGreeting]
    rw [hframe, State.clm_setClm, Clm.enterGreeting_eq]
    rfl

/-- A link monitor right after entry to DARK, by presence level, identity and timing (R29, R30). -/
def Clm.darkened (presence loaded : Bool) (t : Timing) (last : LastChange) : Clm :=
  if presence = true ∧ loaded = true then .rest .settling (startMs t.settleTime) last else .rest .dark none last

theorem State.darkened_eq (s : State) (e : End) (last : LastChange) :
    s.darkened e last = .darkened (s.presence e) s.cu.loaded s.cu.timing last := rfl

/-- A link monitor after an assertion of its PRESENCE input (R20, R29, R40). -/
def Clm.asserted (c : Clm) (loaded : Bool) (t : Timing) : Clm :=
  match c.link with
  | .dark => if loaded then c.enterSettling t else c
  | .fading => { c with link := .joined, fade := none }
  | .settling | .greeting | .mute | .joined | .listen => c

/-- A link monitor after a negation of its PRESENCE input (R20, R30, R33, R35, R39). -/
def Clm.negated (c : Clm) (t : Timing) : Clm :=
  match c.link with
  | .settling | .greeting | .mute => .rest .dark none c.lastChange
  | .joined => c.startFading t
  | .dark | .fading | .listen => c

theorem State.presence_setPresence (s : State) (e e' : End) (v : Bool) :
    (s.setPresence e v).presence e' = if e' = e then v else s.presence e' := by
  cases e <;> cases e' <;> rfl

theorem State.presenceAsserted_clm (s : State) (e e' : End) :
    ((s.setPresence e true).presenceAsserted e).clm e'
      = if e' = e then (s.clm e).asserted s.cu.loaded s.cu.timing else s.clm e' := by
  have hsame : s.clm e' = if e' = e then s.clm e else s.clm e' := by
    split
    · rename_i he
      rw [he]
    · rfl
  unfold State.presenceAsserted Clm.asserted
  rw [State.setPresence_clm]
  cases hl : (s.clm e).link
  case dark =>
    cases hload : s.cu.loaded <;> by_cases he : e' = e <;> simp [State.settleIfReady_clm, hl, hload, he]
  case fading => simp [State.clm_setClm]
  all_goals simpa using hsame

theorem State.presenceNegated_clm (s : State) (e e' : End) :
    ((s.setPresence e false).presenceNegated e).clm e' = if e' = e then (s.clm e).negated s.cu.timing else s.clm e' := by
  have hsame : s.clm e' = if e' = e then s.clm e else s.clm e' := by
    split
    · rename_i he
      rw [he]
    · rfl
  unfold State.presenceNegated Clm.negated
  rw [State.setPresence_clm]
  cases hl : (s.clm e).link
  case joined => simp [State.clm_setClm, Clm.startFading]
  case settling | greeting | mute => simp [State.enterDark_clm, State.darkened_eq, Clm.darkened]
  all_goals simpa using hsame

/-- A start takes one pending mark from one slot and sets none (R27, R163). -/
theorem State.arbitrate_slot (s : State) (p : Port) (e : End) :
    ∃ x, (s.arbitrate p).clm e = { s.clm e with slot := x } ∧ (x.greet = true → (s.clm e).slot.greet = true)
      ∧ (x.rouse = true → (s.clm e).slot.rouse = true) := by
  have hsame : ∃ x, s.clm e = { s.clm e with slot := x } ∧ (x.greet = true → (s.clm e).slot.greet = true)
      ∧ (x.rouse = true → (s.clm e).slot.rouse = true) := ⟨(s.clm e).slot, rfl, id, id⟩
  unfold State.arbitrate
  split
  · exact hsame
  · split
    · exact hsame
    · rename_i x _
      cases x with
      | rouse e' =>
        rw [State.begin, State.clm_withEqm _ _ e, State.clm_setClm]
        split
        · rename_i he
          rw [he]
          exact ⟨{ (s.clm e').slot with rouse := false }, rfl, id, nofun⟩
        · exact hsame
      | greet e' =>
        rw [State.begin, State.clm_withEqm _ _ e, State.clm_setClm]
        split
        · rename_i he
          rw [he]
          exact ⟨{ (s.clm e').slot with greet := false }, rfl, nofun, id⟩
        · exact hsame
      | front c y => rw [State.begin, State.clm_withEqm _ _ e]; exact hsame

/-! ## A property of a link monitor with its presence level, the identity and the timing -/

/-- A property of the link monitor of an end that every event keeps, each with what is known where it is taken: `c` is the monitor, `p`
the presence level, `l` whether the identity is loaded, `t` the timing. -/
structure ClmClosed (Q : Clm → Bool → Bool → Timing → Prop) : Prop where
  slot : ∀ {c p l t} (x : LinkSlot), (x.greet = true → c.slot.greet = true) → (x.rouse = true → c.slot.rouse = true) → Q c p l t →
    Q { c with slot := x } p l t
  tick : ∀ {c p l t}, Q c p l t → Q c.tick p l t
  dark : ∀ {c p l t} (last : LastChange), Q c p l t → Q (.darkened p l t last) p l t
  listen : ∀ {c p l t} (last : LastChange), Q c p l t → Q (.rest .listen none last) p l t
  asserted : ∀ {c l t}, Q c false l t → Q (c.asserted l t) true l t
  negated : ∀ {c l t}, Q c true l t → Q (c.negated t) false l t
  settled : ∀ {c p l t}, c.settle = some 0 → Q c p l t →
    Q (if c.link = .settling then c.enterGreeting t none else { c with settle := none }) p l t
  answered : ∀ {c p l t}, c.link = .greeting → Q c p l t → Q ({ c with greet := startMs t.greetPeriod }.greetInGreeting t) p l t
  placed : ∀ {c p l t}, c.link = .mute → Q c p l t → Q { c with greet := startMs t.greetPeriod }.placeGreet p l t
  silence : ∀ {c p l t}, c.link.isJoined = true → c.silenceAfter < t.silenceLimit → Q c p l t →
    Q { c with greet := startMs t.greetPeriod, silenceCount := c.silenceAfter, greetHeard := false }.placeGreet p l t
  stray : ∀ {c p l t}, c.greet = some 0 → c.link = .dark ∨ c.link = .settling ∨ c.link = .listen → Q c p l t →
    Q { c with greet := startMs t.greetPeriod } p l t
  lost : ∀ {c p l t} (cand : Option Candidate) (last : LastChange), c.link = .joined → Q c p l t →
    Q (.greeting t cand last c.slot.rouse) p l t
  faded : ∀ {c p l t}, c.fade = some 0 → c.link ≠ .fading → Q c p l t → Q { c with fade := none } p l t
  roused : ∀ {c p l t}, c.rouse = some 0 → Q c p l t → Q (if c.link = .mute then c.rouseExpired t else { c with rouse := none }) p l t
  joined : ∀ {c p l t} (clock w : Word) (x : Byte) (g : Half), c.link = .greeting → Q c p l t → Q (c.enterJoined clock w x g) p l t
  candidate : ∀ {c p l t} (x : Candidate), c.link = .greeting → Q c p l t → Q { c with candidate := some x } p l t
  greeted : ∀ {c p l t} (x : Candidate), c.link = .mute → Q c p l t → Q (.greeting t (some x) c.lastChange false) p l t
  heard : ∀ {c p l t} (g : GreetBody), c.link.isJoined = true → Q c p l t → Q (c.keepAlive g) p l t
  identity : ∀ {c p t}, Q c p false t → Q (if c.link = .dark ∧ p = true then c.enterSettling t else c) p true t
  timing : ∀ {c p l t} (x : Parameter) (v : Nat), x.low ≤ v → v ≤ x.high → Q c p l t →
    Q (if x = .greetPeriod then c.restartGreet v else c) p l (t.set v x)
  restarted : ∀ {c p l t}, Q c p l t → Q (.darkened p l .default Clm.powerOn.lastChange) p l .default
  poweredOn : ∀ {c p l t}, Q c p l t → Q .powerOn p false .default

/-- The property of both ends. -/
def State.LinkWise (Q : Clm → Bool → Bool → Timing → Prop) (s : State) : Prop := ∀ e, Q (s.clm e) (s.presence e) s.cu.loaded s.cu.timing

namespace ClmClosed

variable {Q : Clm → Bool → Bool → Timing → Prop} {s t : State}

/-- What leaves monitors, levels, identity and timing keeps the property. -/
theorem linkWise_congr (h : s.LinkWise Q) (hclm : ∀ e, t.clm e = s.clm e) (hp : ∀ e, t.presence e = s.presence e)
    (hcu : t.cu.loaded = s.cu.loaded ∧ t.cu.timing = s.cu.timing) : t.LinkWise Q := by
  intro e
  rw [hclm, hp, hcu.1, hcu.2]
  exact h e

theorem linkWise_of_fields (h : s.LinkWise Q) (ha : t.clmA = s.clmA) (hb : t.clmB = s.clmB)
    (hp : t.lines.presenceA = s.lines.presenceA ∧ t.lines.presenceB = s.lines.presenceB)
    (hcu : t.cu.loaded = s.cu.loaded ∧ t.cu.timing = s.cu.timing) : t.LinkWise Q := by
  refine linkWise_congr h (fun e => ?_) (fun e => ?_) hcu
  · cases e
    · exact ha
    · exact hb
  · cases e
    · exact hp.1
    · exact hp.2

/-- What changes the monitor of one end alone keeps the property of both where it keeps that of this end. -/
theorem linkWise_of_clm {e : End} {c : Clm} (h : s.LinkWise Q) (hc : Q c (s.presence e) s.cu.loaded s.cu.timing)
    (hclm : ∀ e', t.clm e' = if e' = e then c else s.clm e') (hp : ∀ e', t.presence e' = s.presence e')
    (hcu : t.cu.loaded = s.cu.loaded ∧ t.cu.timing = s.cu.timing) : t.LinkWise Q := by
  intro e'
  rw [hclm, hp, hcu.1, hcu.2]
  split
  · rename_i he
    rw [he]
    exact hc
  · exact h e'

theorem linkWise_setClm {e : End} {c : Clm} (h : s.LinkWise Q) (hc : Q c (s.presence e) s.cu.loaded s.cu.timing) :
    (s.setClm e c).LinkWise Q :=
  linkWise_of_clm h hc (fun e' => s.clm_setClm e e' c) (by simp) (by simp)

variable (k : ClmClosed Q)
include k

theorem lostClm {e : End} (hj : (s.clm e).link.isJoined = true) (cause : LossCause) (cand : Option Candidate) (h : s.LinkWise Q) :
    Q (s.lostClm e cause cand) (s.presence e) s.cu.loaded s.cu.timing := by
  unfold State.lostClm
  split
  · exact k.dark _ (h e)
  · rename_i hf
    refine k.lost _ _ ?_ (h e)
    cases hl : (s.clm e).link <;> simp_all [LinkState.isJoined]

theorem linkWise_lose {e : End} (hj : (s.clm e).link.isJoined = true) (cause : LossCause) (cand : Option Candidate)
    (h : s.LinkWise Q) : (s.lose e cause cand).LinkWise Q :=
  linkWise_of_clm h (k.lostClm hj cause cand h) (fun e' => s.lose_clm e e' cause cand) (by simp) (by simp)

omit k in
/-- What a loss leaves of the monitor is not the silence count, the flag or the greet timer. -/
theorem lostClm_setClm {e : End} (cause : LossCause) (cand : Option Candidate) (x : Timer) (n : Nat) (b : Bool) :
    (s.setClm e { s.clm e with greet := x, silenceCount := n, greetHeard := b }).lostClm e cause cand = s.lostClm e cause cand := by
  unfold State.lostClm
  rw [State.clm_setClm_self, State.darkened_congr (s := s) (by simp) (by simp)]
  simp

theorem linkWise_greetInJoined {e : End} (hj : (s.clm e).link.isJoined = true) (h : s.LinkWise Q) :
    ((s.setClm e { s.clm e with greet := startMs s.cu.timing.greetPeriod }).greetInJoined e).LinkWise Q := by
  simp only [State.greetInJoined, State.clm_setClm_self, State.setClm_setClm, State.setClm_cu]
  split
  · refine linkWise_of_clm (e := e) h (k.lostClm hj .silent none h) (fun e' => ?_) (by simp) (by simp)
    rw [State.lose_clm, lostClm_setClm, State.clm_setClm]
    split <;> rfl
  · rename_i hlt
    exact linkWise_setClm h (k.silence hj (by simpa [Clm.silenceAfter] using hlt) (h e))

theorem linkWise_greetExpired {e : End} (hdue : (s.clm e).greet = some 0) (h : s.LinkWise Q) : (s.greetExpired e).LinkWise Q := by
  have hjoined := k.linkWise_greetInJoined (s := s) (e := e)
  simp only [State.greetExpired, State.clm_setClm_self, State.setClm_setClm, State.setClm_cu]
  split <;> rename_i hl
  · exact linkWise_setClm h (k.answered hl (h e))
  · exact linkWise_setClm h (k.placed hl (h e))
  · exact hjoined (by rw [hl]; rfl) h
  · exact hjoined (by rw [hl]; rfl) h
  · exact linkWise_setClm h (k.stray hdue (.inl hl) (h e))
  · exact linkWise_setClm h (k.stray hdue (.inr (.inl hl)) (h e))
  · exact linkWise_setClm h (k.stray hdue (.inr (.inr hl)) (h e))

theorem linkWise_validGreet (e : End) (g : GreetBody) (h : s.LinkWise Q) : (s.validGreet e g).LinkWise Q := by
  have hjoined (hj : (s.clm e).link.isJoined = true) :
      (if (s.clm e).isFromNeighbour g && s.isNamed e g then s.setClm e ((s.clm e).keepAlive g)
        else s.lose e .changed (some g.candidate)).LinkWise Q := by
    split
    · exact linkWise_setClm h (k.heard g hj (h e))
    · exact k.linkWise_lose hj _ _ h
  simp only [State.validGreet]
  split <;> rename_i hl
  · split
    · have hnew := linkWise_setClm h (k.joined s.clock g.sender g.senderEnd g.generation hl (h e))
      exact linkWise_congr hnew (by simp) (by simp) (by simp)
    · exact linkWise_setClm h (k.candidate _ hl (h e))
  · exact linkWise_setClm h (k.greeted (c := s.clm e) g.candidate hl (h e))
  · exact hjoined (by rw [hl]; rfl)
  · exact hjoined (by rw [hl]; rfl)
  all_goals exact h

theorem linkWise_enterDormant (h : s.LinkWise Q) : s.enterDormant.LinkWise Q := by
  intro e
  have hframe := s.enterDormant_frame
  rw [State.enterDormant_clm]
  simpa using k.listen (s.clm e).lastChange (h e)

theorem linkWise_completed (p : Port) (h : s.LinkWise Q) : (s.completed p).LinkWise Q := by
  simp only [State.completed]
  split
  · exact h
  · have hu (q : Eqm) : ({ s with eqm := q } : State).LinkWise Q :=
      linkWise_congr h (fun e => s.clm_withEqm q e) (fun e => s.presence_withEqm q e) ⟨rfl, rfl⟩
    split
    · split
      · exact k.linkWise_enterDormant (hu _)
      · exact hu _
    · exact hu _
    · exact hu _

theorem linkWise_cmdSleep (r : Request) (h : s.LinkWise Q) : (s.cmdSleep r).LinkWise Q := by
  have hpending : ({ s with cu := { s.cu with sleepPending := true } } : State).LinkWise Q :=
    linkWise_of_fields h rfl rfl ⟨rfl, rfl⟩ ⟨rfl, rfl⟩
  have hoffered := linkWise_congr (t := ({ s with cu := { s.cu with sleepPending := true } } : State).offer .c .c0 (s.sleepEntry r true))
    hpending (by simp) (by simp) (by simp)
  simp only [State.cmdSleep]
  split
  · exact linkWise_congr h (by simp) (by simp) (by simp)
  · split
    · exact linkWise_congr h (by simp) (by simp) (by simp)
    · split
      · exact hoffered
      · exact k.linkWise_enterDormant hoffered

theorem linkWise_identity (w : Word) (hl : s.cu.loaded = false) (h : s.LinkWise Q) :
    ((({ s with cu := { s.cu with identity := w, loaded := true } } : State).settleIfReady .a).settleIfReady .b).LinkWise Q := by
  intro e
  have hid := k.identity (hl ▸ h e)
  have hclm (e : End) : ({ s with cu := { s.cu with identity := w, loaded := true } } : State).clm e = s.clm e := by
    cases e <;> rfl
  have hp (e : End) : ({ s with cu := { s.cu with identity := w, loaded := true } } : State).presence e = s.presence e := by
    cases e <;> rfl
  cases e <;> simpa [State.settleIfReady_clm, hclm, hp] using hid

theorem linkWise_setTiming (x : Parameter) (v : Nat) (hlow : x.low ≤ v) (hhigh : v ≤ x.high) (h : s.LinkWise Q) :
    (s.setTiming x v).LinkWise Q := by
  intro e
  have hset := k.timing x v hlow hhigh (h e)
  have hclm : (s.setTiming x v).clm e = if x = .greetPeriod then (s.clm e).restartGreet v else s.clm e := by
    simp only [State.setTiming]
    split <;> cases e <;> rfl
  rw [hclm]
  simpa using hset

omit k in
/-- RESTART reads the presence levels, and leaves identity and clock (R180). -/
theorem restarted_inputs (s : State) (e : End) :
    s.restarted.clm e = .darkened (s.presence e) s.cu.loaded .default Clm.powerOn.lastChange
      ∧ s.restarted.presence e = s.presence e ∧ s.restarted.cu.loaded = s.cu.loaded ∧ s.restarted.cu.timing = .default := by
  unfold State.restarted
  extract_lets _ u
  have hclm (e : End) : u.clm e = .powerOn := by cases e <;> rfl
  have hp (e : End) : u.presence e = s.presence e := by cases e <;> rfl
  have hcu : u.cu.loaded = s.cu.loaded ∧ u.cu.timing = .default := ⟨rfl, rfl⟩
  have hdark : Clm.powerOn.link = .dark := rfl
  have hready (p : Bool) : (if p = true ∧ s.cu.loaded = true then Clm.powerOn.enterSettling .default else Clm.powerOn)
      = .darkened p s.cu.loaded .default Clm.powerOn.lastChange := rfl
  cases e <;> simp [State.settleIfReady_clm, hclm, hp, hcu, hdark, hready]

theorem linkWise_restarted (h : s.LinkWise Q) : s.restarted.LinkWise Q := by
  intro e
  obtain ⟨hclm, hp, hl, ht⟩ := restarted_inputs s e
  rw [hclm, hp, hl, ht]
  exact k.restarted (h e)

/-- A property of the link monitors that their events keep, every output and event of the part keeps. -/
theorem stateClosed : StateClosed (State.LinkWise Q) where
  books s l n x t h := linkWise_of_fields h rfl rfl ⟨rfl, rfl⟩ ⟨rfl, rfl⟩
  offer s p c e _ h := linkWise_congr h (by simp) (by simp) (by simp)
  arbitrate s p h := fun e => by
    obtain ⟨x, hx, hgreet, hrouse⟩ := s.arbitrate_slot p e
    rw [hx]
    simpa using k.slot x hgreet hrouse (h e)
  tick s h := fun e => by
    have htick := k.tick (h e)
    cases e <;> exact htick
  wakeInput s v h := linkWise_of_fields h rfl rfl ⟨rfl, rfl⟩ ⟨rfl, rfl⟩
  presenceAsserted s e hp h := fun e' => by
    rw [State.presenceAsserted_clm]
    simp only [State.presenceAsserted_frame, State.presence_setPresence, State.setPresence_cu]
    split
    · exact k.asserted (hp ▸ h e)
    · exact h e'
  presenceNegated s e hp h := fun e' => by
    rw [State.presenceNegated_clm]
    simp only [State.presenceNegated_frame, State.presence_setPresence, State.setPresence_cu]
    split
    · exact k.negated (hp ▸ h e)
    · exact h e'
  capture s x _ h := linkWise_of_fields h rfl rfl ⟨rfl, rfl⟩ ⟨rfl, rfl⟩
  wake s _ h := fun e => by
    rw [State.wake_clm]
    simpa [State.darkened_eq] using k.dark (s.clm e).lastChange (h e)
  settleExpired s e hdue h := by
    have hq := k.settled hdue (h e)
    unfold State.settleExpired
    split <;> rename_i hl
    · exact linkWise_setClm h (by simpa [hl] using hq)
    · exact linkWise_setClm h (by simpa [hl] using hq)
  greetExpired s e hdue h := k.linkWise_greetExpired hdue h
  fadeExpired s e hdue h := by
    unfold State.fadeExpired
    split
    · exact linkWise_of_clm h (k.dark _ (h e)) (fun e' => s.loseToDark_clm e e' .uncoupled) (by simp) (by simp)
    · rename_i hl
      exact linkWise_setClm h (k.faded hdue hl (h e))
  rouseExpired s e hdue h := by
    have hq := k.roused hdue (h e)
    unfold State.rouseExpired
    split <;> rename_i hl
    · exact linkWise_setClm h (by simpa [hl] using hq)
    · exact linkWise_setClm h (by simpa [hl] using hq)
  validGreet s e g h := k.linkWise_validGreet e g h
  completed s p h := k.linkWise_completed p h
  cmdSleep s r h := k.linkWise_cmdSleep r h
  restarted s h := k.linkWise_restarted h
  poweredOn s h := fun e => by
    have hreset := k.poweredOn (h e)
    cases e <;> exact hreset
  identity s w hl h := k.linkWise_identity w hl h
  report s h := linkWise_of_fields h rfl rfl ⟨rfl, rfl⟩ ⟨rfl, rfl⟩
  hold s x h := linkWise_of_fields h rfl rfl ⟨rfl, rfl⟩ ⟨rfl, rfl⟩
  rule s i l x _ _ h := linkWise_of_fields h rfl rfl ⟨rfl, rfl⟩ ⟨rfl, rfl⟩
  policy s q c h := linkWise_of_fields h rfl rfl ⟨rfl, rfl⟩ ⟨rfl, rfl⟩
  timing s x v hlow hhigh h := k.linkWise_setTiming x v hlow hhigh h
  emptied s h := linkWise_of_fields h rfl rfl ⟨rfl, rfl⟩ ⟨rfl, rfl⟩
  opened s m w _ h := linkWise_of_fields h rfl rfl ⟨rfl, rfl⟩ ⟨rfl, rfl⟩
  loaded s b l n w _ _ _ _ h := linkWise_of_fields h rfl rfl ⟨rfl, rfl⟩ ⟨rfl, rfl⟩
  confirming s b w t _ _ _ h := linkWise_of_fields h rfl rfl ⟨rfl, rfl⟩ ⟨rfl, rfl⟩
  folded s h := linkWise_congr h (by simp) (by simp) (by simp)
  confirmed s b t w l _ _ h := linkWise_of_fields h rfl rfl ⟨rfl, rfl⟩ ⟨rfl, rfl⟩
  graceEnded s h := linkWise_of_fields h rfl rfl ⟨rfl, rfl⟩ ⟨rfl, rfl⟩
  changeover s b r _ h := linkWise_congr h (by simp) (by simp) (by simp)
  interpret s f h := linkWise_congr h (by simp) (by simp) (by simp)

end ClmClosed

end Sys2Proof.Machine
end

section
/-! The table of R19 and the ranges of R19, R22 and R137 over a step. -/

namespace Sys2Proof.Machine

/-! ## The table of R19 -/

/-- A link monitor as R19 and R29 say, with its presence level and the identity. -/
def Clm.InTable (c : Clm) (presence loaded : Bool) (_ : Timing) : Prop := c.Sound ∧ PresenceAgrees c.link presence loaded

theorem Clm.darkened_inTable (p l : Bool) (t : Timing) (last : LastChange) : (Clm.darkened p l t last).InTable p l t := by
  unfold Clm.darkened
  split
  · rename_i h
    exact ⟨by simp [Clm.Sound, Clm.rest, LinkState.isJoined, startMs], h⟩
  · rename_i h
    exact ⟨by simp [Clm.Sound, Clm.rest, LinkState.isJoined], h⟩

theorem Clm.greeting_inTable {p l : Bool} (h : p = true ∧ l = true) (t : Timing) (cand : Option Candidate) (last : LastChange) :
    (Clm.greeting t cand last false).InTable p l t :=
  ⟨by simp [Clm.Sound, Clm.greeting, LinkState.isJoined, startMs], h⟩

theorem Clm.enterSettling_sound {c : Clm} {t : Timing} (h : c.Sound) (hl : c.link = .dark) : (c.enterSettling t).Sound := by
  obtain ⟨h1, h2, h3, h4, h5, h6, h7, h8⟩ := h
  have hgreet : c.slot.greet = false := by
    rw [Bool.eq_false_iff]
    intro hg
    have := h2.1 (h7 hg)
    simp [hl, LinkState.isJoined] at this
  simp_all [Clm.Sound, Clm.enterSettling, LinkState.isJoined, startMs]

/-- Each event keeps the table: the timers and records that the new link state asks for are those the event sets. -/
theorem clmClosed_table : ClmClosed Clm.InTable where
  slot x hg hr h := by
    obtain ⟨⟨h1, h2, h3, h4, h5, h6, h7, h8⟩, hp⟩ := h
    exact ⟨⟨h1, h2, h3, h4, h5, h6, fun h => h7 (hg h), fun h => h8 (hr h)⟩, hp⟩
  tick h := by
    obtain ⟨hs, hp⟩ := h
    refine ⟨?_, hp⟩
    simpa [Clm.Sound, Clm.tick, tickTimer] using hs
  dark last _ := Clm.darkened_inTable _ _ _ last
  listen last _ := ⟨by simp [Clm.Sound, Clm.rest, LinkState.isJoined], trivial⟩
  asserted {c l t} h := by
    obtain ⟨hs, hp⟩ := h
    unfold Clm.asserted
    cases hl : c.link <;> simp only [hl, PresenceAgrees] at hp
    case dark =>
      cases l
      · exact ⟨hs, by simp [hl, PresenceAgrees]⟩
      · exact ⟨Clm.enterSettling_sound hs hl, rfl, rfl⟩
    case fading => exact ⟨by simp_all [Clm.Sound, LinkState.isJoined], rfl, hp.2⟩
    case listen => exact ⟨hs, by rw [hl]; trivial⟩
    all_goals exact absurd hp.1 (by decide)
  negated {c l t} h := by
    obtain ⟨hs, hp⟩ := h
    unfold Clm.negated
    cases hl : c.link <;> simp only [hl, PresenceAgrees] at hp
    case dark => exact ⟨hs, by simp [hl, PresenceAgrees]⟩
    case joined => exact ⟨by simp_all [Clm.Sound, Clm.startFading, LinkState.isJoined, startMs], rfl, hp.2⟩
    case fading => exact absurd hp.1 (by decide)
    case listen => exact ⟨hs, by rw [hl]; trivial⟩
    all_goals exact ⟨by simp [Clm.Sound, Clm.rest, LinkState.isJoined], by simp [Clm.rest, PresenceAgrees]⟩
  settled {c p l t} hdue h := by
    obtain ⟨hs, hp⟩ := h
    have hl : c.link = .settling := hs.1.1 (by simp [hdue])
    have hr : c.slot.rouse = false := by
      obtain ⟨-, -, -, -, -, -, -, h8⟩ := hs
      simpa [hl] using h8
    rw [if_pos hl, Clm.enterGreeting_eq, hr]
    rw [hl] at hp
    exact Clm.greeting_inTable hp t _ _
  answered {c p l t} hl h := by
    obtain ⟨hs, hp⟩ := h
    simp only [Clm.greetInGreeting, Clm.placeGreet]
    split
    · refine ⟨by simp_all [Clm.Sound, Clm.enterMute, LinkState.isJoined, startMs], ?_⟩
      rw [hl] at hp
      exact hp
    · exact ⟨by simp_all [Clm.Sound, LinkState.isJoined, startMs], hp⟩
  placed {c p l t} hl h := by
    obtain ⟨hs, hp⟩ := h
    exact ⟨by simp_all [Clm.Sound, Clm.placeGreet, LinkState.isJoined, startMs], hp⟩
  silence {c p l t} hj _ h := by
    obtain ⟨hs, hp⟩ := h
    refine ⟨?_, hp⟩
    simp only [Clm.Sound, Clm.placeGreet, startMs, hj] at hs ⊢
    simp_all
  stray {c p l t} hdue hl h := by
    obtain ⟨⟨-, h2, -⟩, -⟩ := h
    have := h2.1 (by simp [hdue])
    rcases hl with hl | hl | hl <;> simp [hl, LinkState.isJoined] at this
  lost {c p l t} cand last hl h := by
    obtain ⟨hs, hp⟩ := h
    have hr : c.slot.rouse = false := by
      obtain ⟨-, -, -, -, -, -, -, h8⟩ := hs
      simpa [hl] using h8
    rw [hl] at hp
    rw [hr]
    exact Clm.greeting_inTable hp t cand last
  faded {c p l t} hdue hl h := by
    obtain ⟨⟨-, -, h3, -⟩, -⟩ := h
    exact absurd (h3.1 (by simp [hdue])) hl
  roused {c p l t} hdue h := by
    obtain ⟨hs, hp⟩ := h
    have hl : c.link = .mute := by
      obtain ⟨-, -, -, h4, -⟩ := hs
      exact h4 (by simp [hdue])
    rw [if_pos hl]
    exact ⟨by simp_all [Clm.Sound, Clm.rouseExpired, Clm.placeRouse, LinkState.isJoined], hp⟩
  joined {c p l t} clock w x g hl h := by
    obtain ⟨hs, hp⟩ := h
    rw [hl] at hp
    exact ⟨by simp_all [Clm.Sound, Clm.enterJoined, LinkState.isJoined], hp⟩
  candidate {c p l t} x hl h := by
    obtain ⟨hs, hp⟩ := h
    exact ⟨by simp_all [Clm.Sound], hp⟩
  greeted {c p l t} x hl h := by
    obtain ⟨-, hp⟩ := h
    rw [hl] at hp
    exact Clm.greeting_inTable hp t _ _
  heard {c p l t} g hj h := by
    obtain ⟨hs, hp⟩ := h
    exact ⟨by simpa [Clm.Sound, Clm.keepAlive] using hs, hp⟩
  identity {c p t} h := by
    obtain ⟨hs, hp⟩ := h
    split
    · rename_i hd
      exact ⟨Clm.enterSettling_sound hs hd.1, hd.2, rfl⟩
    · rename_i hd
      refine ⟨hs, ?_⟩
      cases hl : c.link <;> simp_all [PresenceAgrees]
  timing {c p l t} x v _ _ h := by
    obtain ⟨hs, hp⟩ := h
    split
    · refine ⟨?_, hp⟩
      have hsome : (c.restartGreet v).greet.isSome = c.greet.isSome := by
        simp only [Clm.restartGreet, startMs]
        cases hg : c.greet with
        | none => rfl
        | some n => cases isDue (some n) <;> rfl
      simp only [Clm.Sound, hsome]
      exact hs
    · exact ⟨hs, hp⟩
  restarted _ := Clm.darkened_inTable _ _ _ _
  poweredOn _ := ⟨Clm.powerOn_sound, by simp [Clm.powerOn, PresenceAgrees]⟩

/-- Settles O56: `LinksSound` is the table at both ends, and each event of a link monitor keeps the table. -/
theorem stepKeepsLinkTable : Obligations.StepKeepsLinkTable := by
  intro s t hs hstep
  refine clmClosed_table.stateClosed.step (fun s l h => ?_) hs hstep
  exact ClmClosed.linkWise_of_fields h rfl rfl ⟨rfl, rfl⟩ ⟨rfl, rfl⟩

/-! ## Counts and timing parameters -/

/-- The counts of a link monitor in the ranges of R19, under timing parameters in the ranges of R188. -/
def Clm.InRange (c : Clm) (_ _ : Bool) (t : Timing) : Prop :=
  TimingInRange t
    ∧ c.answerCount ≤ 100 ∧ (c.link = .greeting → c.answerCount < 100)
    ∧ c.silenceCount ≤ 15 ∧ (c.link.isJoined = true → c.silenceCount < 15)
    ∧ c.rouseCount ≤ 255 ∧ (c.rouse.isSome = true → c.rouseCount < 255)

theorem countsInRange_iff (s : State) : CountsInRange s ↔ s.LinkWise Clm.InRange :=
  ⟨fun h e => ⟨h.1, h.2 e⟩, fun h => ⟨(h .a).1, fun e => (h e).2⟩⟩

theorem Clm.darkened_inRange {t : Timing} (h : TimingInRange t) (p l : Bool) (last : LastChange) :
    (Clm.darkened p l t last).InRange p l t := by
  unfold Clm.darkened
  split <;> exact ⟨h, by simp [Clm.rest]⟩

theorem Clm.greeting_inRange {t : Timing} (h : TimingInRange t) (p l : Bool) (cand : Option Candidate) (last : LastChange) (b : Bool) :
    (Clm.greeting t cand last b).InRange p l t := ⟨h, by simp [Clm.greeting]⟩

theorem TimingInRange.set {t : Timing} (h : TimingInRange t) {x : Parameter} {v : Nat} (hlow : x.low ≤ v) (hhigh : v ≤ x.high) :
    TimingInRange (t.set v x) := by
  intro y
  have hy := h y
  cases x <;> cases y <;> first | exact hy | exact ⟨hlow, hhigh⟩

/-- A count rises below its limit alone, and no limit lies above the bound of its count. -/
theorem clmClosed_range : ClmClosed Clm.InRange where
  slot _ _ _ h := h
  tick {c p l t} h := by simpa [Clm.InRange, Clm.tick, tickTimer] using h
  dark last h := Clm.darkened_inRange h.1 _ _ last
  listen last h := ⟨h.1, by simp [Clm.rest]⟩
  asserted {c l t} h := by
    obtain ⟨ht, ha, hag, hs, hsj, hr⟩ := h
    unfold Clm.asserted
    split
    · rename_i hl
      split <;> exact ⟨ht, ha, by simp_all [Clm.enterSettling], hs, by simp_all [Clm.enterSettling, LinkState.isJoined], hr⟩
    · rename_i hl
      exact ⟨ht, ha, by simp, hs, fun _ => hsj (by rw [hl]; rfl), hr⟩
    all_goals exact ⟨ht, ha, hag, hs, hsj, hr⟩
  negated {c l t} h := by
    obtain ⟨ht, ha, hag, hs, hsj, hr⟩ := h
    unfold Clm.negated
    split
    case h_4 hl => exact ⟨ht, ha, by simp [Clm.startFading], hs, fun _ => hsj (by rw [hl]; rfl), hr⟩
    case h_1 | h_2 | h_3 => exact ⟨ht, by simp [Clm.rest]⟩
    all_goals exact ⟨ht, ha, hag, hs, hsj, hr⟩
  settled {c p l t} _ h := by
    split
    · exact Clm.greeting_inRange h.1 _ _ _ _ _
    · exact h
  answered {c p l t} hl h := by
    obtain ⟨ht, ha, hag, hs, hsj, hr⟩ := h
    have hlimit := (ht .answerLimit).2
    have hcount := hag hl
    simp only [Timing.get, Parameter.high] at hlimit
    simp only [Clm.greetInGreeting, Clm.placeGreet]
    split
    · exact ⟨ht, Nat.succ_le_of_lt hcount, by simp [Clm.enterMute], hs, by simp [Clm.enterMute, LinkState.isJoined],
        by simp [Clm.enterMute], by simp [Clm.enterMute]⟩
    · rename_i hlt
      have hle : c.answerCount + 1 < 100 := by omega
      exact ⟨ht, Nat.le_of_lt hle, fun _ => hle, hs, hsj, hr⟩
  placed _ h := h
  silence {c p l t} hj hlt h := by
    obtain ⟨ht, ha, hag, hs, hsj, hr⟩ := h
    have hlimit := (ht .silenceLimit).2
    simp only [Timing.get, Parameter.high] at hlimit
    exact ⟨ht, ha, hag, by dsimp only [Clm.placeGreet]; omega, fun _ => by dsimp only [Clm.placeGreet]; omega, hr⟩
  stray _ _ h := h
  lost cand last _ h := Clm.greeting_inRange h.1 _ _ _ _ _
  faded _ _ h := h
  roused {c p l t} hdue h := by
    obtain ⟨ht, ha, hag, hs, hsj, hr, hrs⟩ := h
    have hlimit := (ht .rouseBurst).2
    have hcount := hrs (by simp [hdue])
    simp only [Timing.get, Parameter.high] at hlimit
    split
    · refine ⟨ht, ha, hag, hs, hsj, hcount, fun hsome => ?_⟩
      refine Classical.byContradiction fun hn => ?_
      have hburst : t.rouseBurst ≤ c.rouseCount + 1 := by
        simp only [Clm.rouseExpired, Clm.placeRouse] at hn
        omega
      simp [Clm.rouseExpired, Clm.placeRouse, hburst] at hsome
    · exact ⟨ht, ha, hag, hs, hsj, hr, by simp⟩
  joined {c p l t} clock w x g _ h := by
    obtain ⟨ht, ha, hag, hs, hsj, hr⟩ := h
    exact ⟨ht, by simp [Clm.enterJoined], by simp [Clm.enterJoined], by simp [Clm.enterJoined], by simp [Clm.enterJoined], hr⟩
  candidate _ _ h := h
  greeted _ _ h := Clm.greeting_inRange h.1 _ _ _ _ _
  heard {c p l t} g _ h := by
    obtain ⟨ht, ha, hag, hs, hsj, hr⟩ := h
    exact ⟨ht, ha, hag, by simp [Clm.keepAlive], by simp [Clm.keepAlive], hr⟩
  identity {c p t} h := by
    obtain ⟨ht, ha, hag, hs, hsj, hr⟩ := h
    split
    · exact ⟨ht, ha, by simp [Clm.enterSettling], hs, by simp [Clm.enterSettling, LinkState.isJoined], hr⟩
    · exact ⟨ht, ha, hag, hs, hsj, hr⟩
  timing {c p l t} x v hlow hhigh h := by
    obtain ⟨ht, hrest⟩ := h
    refine ⟨ht.set hlow hhigh, ?_⟩
    split <;> exact hrest
  restarted _ := Clm.darkened_inRange Timing.default_inRange _ _ _
  poweredOn _ := ⟨Timing.default_inRange, by simp [Clm.powerOn]⟩

/-! ## The rule table (R137) -/

theorem ruleOfImage_sound {l : List Byte} {x : Rule} (hlen : l.length = 42) (h : ruleOfImage l = some x) :
    x.values.length = 32 ∧ 20 ≤ x.minLength ∧ x.minLength ≤ 1020 := by
  simp only [ruleOfImage] at h
  split at h
  · cases h
  · split at h
    · cases h
    · rename_i hrange
      simp only [Bool.or_eq_true, decide_eq_true_eq, not_or, Nat.not_lt] at hrange
      cases h
      exact ⟨by simp [hlen], hrange.1, hrange.2⟩

/-- RULE-WRITE alone writes a rule, and only one that its image spells; the resets write the reset rule. -/
theorem stateClosed_rules : StateClosed RulesSound where
  books _ _ _ _ _ h := h
  offer s p c e _ h := by simpa [RulesSound] using h
  arbitrate s p h := by simpa [RulesSound] using h
  tick _ h := h
  wakeInput _ _ h := h
  presenceAsserted s e _ h := by
    have hcm : ((s.setPresence e true).presenceAsserted e).cm = s.cm := by simp
    rwa [RulesSound, hcm]
  presenceNegated s e _ h := by
    have hcm : ((s.setPresence e false).presenceNegated e).cm = s.cm := by simp
    rwa [RulesSound, hcm]
  capture _ _ _ h := h
  wake s _ h := by rwa [RulesSound, State.wake_cm]
  settleExpired s e _ h := by rwa [RulesSound, State.settleExpired_cm]
  greetExpired s e _ h := by rwa [RulesSound, State.greetExpired_cm]
  fadeExpired s e _ h := by rwa [RulesSound, State.fadeExpired_cm]
  rouseExpired s e _ h := by rwa [RulesSound, State.rouseExpired_cm]
  validGreet s e g h := by rwa [RulesSound, State.validGreet_cm]
  completed s p h := by rwa [RulesSound, State.completed_cm]
  cmdSleep s r h := by rwa [RulesSound, State.cmdSleep_cm]
  restarted s h := by
    rw [RulesSound, State.restarted_rules]
    exact ⟨rfl, fun r hr => by rw [List.eq_of_mem_replicate hr]; decide⟩
  poweredOn s h := ⟨rfl, fun r hr => by rw [List.eq_of_mem_replicate hr]; decide⟩
  identity s w _ h := by
    rw [RulesSound, State.settleIfReady_cm, State.settleIfReady_cm]
    exact h
  report _ h := h
  hold _ _ h := h
  rule s i l x hlen hx h := by
    refine ⟨by simpa using h.1, fun r hr => ?_⟩
    rcases List.mem_or_eq_of_mem_set hr with hr | rfl
    · exact h.2 r hr
    · exact ruleOfImage_sound hlen hx
  policy s q c h := by rwa [RulesSound, ClassMatcher.setPolicy_rules]
  timing s x v _ _ h := by rwa [RulesSound, State.setTiming_cm]
  emptied _ h := h
  opened _ _ _ _ h := h
  loaded _ _ _ _ _ _ _ _ _ h := h
  confirming _ _ _ _ _ _ _ h := h
  folded s h := by rwa [RulesSound, State.blockFoldDone_cm]
  confirmed _ _ _ _ _ _ _ h := h
  graceEnded _ h := h
  changeover s b r _ h := by simpa [RulesSound] using h
  interpret s f h := by rwa [RulesSound, State.interpret_cm]

/-- Settles O57: a count and its limit link by link, and the rules by RULE-WRITE. -/
theorem stepKeepsConfiguredRanges : Obligations.StepKeepsConfiguredRanges := by
  intro s t hstep
  refine ⟨fun h => ?_, fun h => stateClosed_rules.step (fun _ _ h => h) h hstep⟩
  rw [countsInRange_iff] at h ⊢
  refine clmClosed_range.stateClosed.step (fun s l h => ?_) h hstep
  exact ClmClosed.linkWise_of_fields h rfl rfl ⟨rfl, rfl⟩ ⟨rfl, rfl⟩

end Sys2Proof.Machine
end

section
/-! Records and their images (R59, R86, R94), and the rosters and the staging over a step (R60, R84 to R86, R95, R97, R106). -/

namespace Sys2Proof.Machine

/-! ## The values at an offset, written again as bytes -/

theorem bytes_halfAt (l : List Byte) (i : Nat) : Half.bytes (halfAt l i) = [byteAt l i, byteAt l (i + 1)] := by
  have hhigh (x y : Byte) : (x ++ y).extractLsb' 8 8 = x := by
    ext j hj
    simp only [BitVec.getElem_extractLsb']
    grind
  have hlow (x y : Byte) : (x ++ y).extractLsb' 0 8 = y := by
    ext j hj
    simp only [BitVec.getElem_extractLsb']
    grind
  rw [Half.bytes, halfAt, hhigh, hlow]

theorem bytes_wordAt (l : List Byte) (i : Nat) :
    Word.bytes (wordAt l i) = [byteAt l i, byteAt l (i + 1), byteAt l (i + 2), byteAt l (i + 3)] := by
  have hbytes (x y z w : Byte) : Word.bytes (x ++ y ++ (z ++ w) : BitVec 32) = [x, y, z, w] := by
    simp only [Word.bytes, List.cons.injEq]
    refine ⟨?_, ?_, ?_, ?_, trivial⟩ <;> ext j hj <;> simp only [BitVec.getElem_extractLsb'] <;> grind
  exact hbytes _ _ _ _

/-- Six bytes at an offset, one by one. -/
theorem take_drop_six {l : List Byte} {i : Nat} (h : i + 6 ≤ l.length) :
    (l.drop i).take 6 = [byteAt l i, byteAt l (i + 1), byteAt l (i + 2), byteAt l (i + 3), byteAt l (i + 4), byteAt l (i + 5)] := by
  refine List.ext_getElem (by simp; omega) fun j hj _ => ?_
  have hj6 : j < 6 := Nat.lt_of_lt_of_le hj (List.length_take_le 6 _)
  have hij : i + j < l.length := by omega
  have hat : ((l.drop i).take 6)[j] = byteAt l (i + j) := by
    simp [byteAt, List.getD_eq_getElem?_getD, List.getElem?_eq_getElem hij]
  rw [hat]
  have hcases : j = 0 ∨ j = 1 ∨ j = 2 ∨ j = 3 ∨ j = 4 ∨ j = 5 := by omega
  rcases hcases with rfl | rfl | rfl | rfl | rfl | rfl
  all_goals rfl

/-! ## Images of records -/

/-- With the reserved bits 0, the attributes byte is the one the record was read from (R94). -/
theorem attributes_of_reservedClear : ∀ b : Byte, b &&& 0xFC#8 = 0 →
    ((if (if b.getLsbD 0 then Orientation.reversed else .normal) = .reversed then 0x01#8 else 0x00)
      ||| (if b.getLsbD 1 then 0x02 else 0x00)) = b := by
  decide

/-- The image of the record read at an offset is what stands there. -/
theorem image_recordAt {l : List Byte} {i : Nat} (hc : reservedClear l i = true) (h : i + 6 ≤ l.length) :
    (recordAt l i).image = (l.drop i).take 6 := by
  have hattr := attributes_of_reservedClear (byteAt l (i + 5)) (by simpa [reservedClear] using hc)
  have hpos : natByte (byteAt l (i + 4)).toNat = byteAt l (i + 4) := by simp [natByte]
  rw [take_drop_six h, Record.image, Record.attributes]
  simp only [recordAt, bytes_wordAt, hpos, List.cons_append, List.nil_append]
  exact congrArg (fun x => [byteAt l i, byteAt l (i + 1), byteAt l (i + 2), byteAt l (i + 3), byteAt l (i + 4), x]) hattr

/-- The images of the records of a block are the bytes of the block. -/
theorem recordImages_blockRecords {l : List Byte} {n : Nat} (hlen : 1 + 6 * n ≤ l.length)
    (hc : ∀ x ∈ blockRecords l n, x.2 = true) :
    recordImages ((blockRecords l n).map (·.1)) = (l.drop 1).take (6 * n) := by
  have himages : ∀ m ≤ n, ((List.range m).map fun i => (recordAt l (1 + 6 * i)).image).flatten = (l.drop 1).take (6 * m) := by
    intro m hm
    induction m with
    | zero => simp
    | succ m ih =>
      have hclear : reservedClear l (1 + 6 * m) = true :=
        hc (recordAt l (1 + 6 * m), reservedClear l (1 + 6 * m)) (List.mem_map.2 ⟨m, List.mem_range.2 (by omega), rfl⟩)
      rw [List.range_succ, List.map_append, List.flatten_append, ih (by omega), Nat.mul_succ, List.take_add, List.drop_drop]
      simp [image_recordAt hclear (by omega)]
  simpa [recordImages, blockRecords, Function.comp_def] using himages n (Nat.le_refl _)

theorem crcFold_append (w : Word) (l m : List Byte) : crcFold w (l ++ m) = crcFold (crcFold w l) m := List.foldl_append

/-- The fold context of a roster with a block appended is that of the roster, folded on over the images of the block (R8, R95). -/
theorem foldContext_append (x y : List Record) : foldContext (x ++ y) = crcFold (foldContext x) (recordImages y) := by
  have himages : recordImages (x ++ y) = recordImages x ++ recordImages y := by simp [recordImages]
  rw [foldContext, himages, checkWord, crcFold_append, foldContext, checkWord]

/-! ## The tests of a block (R93, R94) -/

/-- A block whose records pass the tests of R94: consecutive positions, valid identities not known before and not repeated, reserved
bits 0. -/
def BlockFits (next : Nat) (known : List Word) (block : List (Record × Bool)) : Prop :=
  block.map (fun x => x.1.position) = List.range' next block.length ∧ (block.map (fun x => x.1.identity)).Nodup
    ∧ ∀ x ∈ block, validIdentity x.1.identity = true ∧ x.1.identity ∉ known ∧ x.2 = true

theorem blockFits_cons (next : Nat) (known : List Word) (x : Record × Bool) (block : List (Record × Bool)) :
    BlockFits next known (x :: block) ↔
      (x.1.position = next ∧ validIdentity x.1.identity = true ∧ x.1.identity ∉ known ∧ x.2 = true)
        ∧ BlockFits (next + 1) (x.1.identity :: known) block := by
  simp only [BlockFits, List.map_cons, List.length_cons, List.range'_succ, List.cons.injEq, List.nodup_cons, List.mem_map,
    List.mem_cons, forall_eq_or_imp, not_or]
  constructor
  · rintro ⟨⟨hp, hps⟩, ⟨hnew, hnodup⟩, hx, hall⟩
    exact ⟨⟨hp, hx⟩, hps, hnodup, fun y hy => ⟨(hall y hy).1, ⟨fun he => hnew ⟨y, hy, he⟩, (hall y hy).2.1⟩, (hall y hy).2.2⟩⟩
  · rintro ⟨⟨hp, hx⟩, hps, hnodup, hall⟩
    exact ⟨⟨hp, hps⟩, ⟨fun ⟨y, hy, he⟩ => (hall y hy).2.1.1 he, hnodup⟩, hx, fun y hy =>
      ⟨(hall y hy).1, (hall y hy).2.1.2, (hall y hy).2.2⟩⟩

theorem firstBadRecord_eq_none_iff (next : Nat) (known : List Word) (i : Nat) (block : List (Record × Bool)) :
    firstBadRecord next known i block = none ↔ BlockFits next known block := by
  induction block generalizing next known i with
  | nil => simp [firstBadRecord, BlockFits]
  | cons x block ih =>
    rw [blockFits_cons, ← ih (next + 1) (x.1.identity :: known) (i + 1)]
    simp only [firstBadRecord, List.contains_eq_mem, decide_eq_false_iff_not]
    split
    · rename_i h
      simp [h]
    · rename_i h
      simpa using fun h1 h2 h3 h4 => absurd ⟨h1, h2, h3, h4⟩ h

theorem blockCount_eq_some {l : List Byte} {n : Nat} (h : blockCount l = some n) : 1 ≤ n ∧ n ≤ 4 ∧ l.length = 1 + 6 * n := by
  unfold blockCount at h
  split at h
  · cases h
  · split at h
    · rename_i hb
      cases h
      exact ⟨hb.1, hb.2.1, by simp only [List.length_cons, hb.2.2]; omega⟩
    · cases h

/-- A block that R93 takes: no job in progress, room, and records that fit (R94). -/
theorem StagingBody.loadRefusal_eq_none {b : StagingBody} {job : Job} {w : Word} {block : List (Record × Bool)}
    (h : b.loadRefusal job w block = none) :
    job = .idle ∧ b.records.length + block.length ≤ 24
      ∧ BlockFits b.nextPosition (b.records.map (fun r => r.identity)) block := by
  unfold StagingBody.loadRefusal at h
  split at h
  · cases h
  · split at h
    · cases h
    · split at h
      · cases h
      · split at h
        · cases h
        · rename_i hjob hroom _ hfirst
          exact ⟨Classical.not_not.1 hjob, by omega, (firstBadRecord_eq_none_iff ..).1 hfirst⟩

/-- A block that fits keeps the records of the staging sound. -/
theorem RecordsSound.append {rs : List Record} {block : List (Record × Bool)} (h : RecordsSound rs)
    (hroom : rs.length + block.length ≤ 24) (hfit : BlockFits (rs.length + 1) (rs.map (fun r => r.identity)) block) :
    RecordsSound (rs ++ block.map (·.1)) := by
  obtain ⟨-, hpos, hnodup, hvalid⟩ := h
  obtain ⟨hbpos, hbnodup, hblock⟩ := hfit
  refine ⟨by simpa using hroom, ?_, ?_, fun r hr => ?_⟩
  · rw [List.map_append, hpos, List.map_map, List.length_append, List.length_map, ← List.range'_append_1, Nat.add_comm 1]
    exact congrArg _ hbpos
  · rw [List.map_append, List.map_map]
    refine List.nodup_append.2 ⟨hnodup, hbnodup, fun w hw y hb hwy => ?_⟩
    obtain ⟨x, hx, rfl⟩ := List.mem_map.1 hb
    rw [hwy] at hw
    exact (hblock x hx).2.1 hw
  · rcases List.mem_append.1 hr with hr | hr
    · exact hvalid r hr
    · obtain ⟨x, hx, rfl⟩ := List.mem_map.1 hr
      exact (validIdentity_iff _).1 (hblock x hx).1

/-! ## Rosters and staging over a step -/

/-- RESTART gives every block but the link monitors its power-on values, with the identity, the capture and the clock kept (R180). -/
@[simp] theorem State.restarted_frame (s : State) :
    s.restarted.lines = s.lines ∧ s.restarted.power = .active ∧ s.restarted.clock = s.clock ∧ s.restarted.rouse = s.rouse
      ∧ s.restarted.ru = .powerOn ∧ s.restarted.ng = .powerOn ∧ s.restarted.su = .powerOn ∧ s.restarted.cm = .powerOn
      ∧ s.restarted.eqm = .powerOn ∧ s.restarted.discards = .powerOn
      ∧ s.restarted.cu = { CommandUnit.powerOn with identity := s.cu.identity, loaded := s.cu.loaded }
      ∧ s.restarted.free = s.free ∧ s.restarted.pending = s.pending := by
  simp [State.restarted]

/-- The invariant reads the identity, the rosters, whether the grace timer runs, and the staging unit. -/
theorem RostersSound.congr {s t : State} (h : RostersSound s)
    (hcu : t.cu.loaded = s.cu.loaded ∧ t.cu.identity = s.cu.identity) (ha : t.ru.active = s.ru.active)
    (hp : t.ru.prior = s.ru.prior) (hg : t.ru.grace.isSome = s.ru.grace.isSome)
    (hsu : t.su.staging = s.su.staging ∧ t.su.job = s.su.job ∧ t.su.timer.isSome = s.su.timer.isSome) : RostersSound t := by
  obtain ⟨hloaded, hid⟩ := hcu
  obtain ⟨hst, hjob, htimer⟩ := hsu
  have hnone : t.su.timer = none ↔ s.su.timer = none := by
    rw [← Option.isNone_iff_eq_none, ← Option.isNone_iff_eq_none, ← Option.not_isSome, ← Option.not_isSome, htimer]
  have hown : t.ownId = s.ownId := by simp only [State.ownId, CommandUnit.ownIdentity, hloaded, hid]
  obtain ⟨hguard, hactive, hprior, hstaging⟩ := h
  refine ⟨?_, ?_, ?_, ?_⟩
  · rwa [IdentityGuards, hloaded, ha, hp, hst]
  · rwa [ActiveSound, ha, hown]
  · rwa [PriorSound, ha, hp, hg, hown]
  · simpa only [StagingSound, hst, hjob, htimer, hnone, ha, hown] using hstaging

/-- Every field but the grace timer and the staging timer may stand as it was. -/
theorem RostersSound.congr_eq {s t : State} (h : RostersSound s)
    (hcu : t.cu.loaded = s.cu.loaded ∧ t.cu.identity = s.cu.identity) (ha : t.ru.active = s.ru.active)
    (hp : t.ru.prior = s.ru.prior) (hg : t.ru.grace = s.ru.grace) (hsu : t.su = s.su) : RostersSound t :=
  h.congr hcu ha hp (by rw [hg]) (by simp [hsu])

/-- An empty staging, with or without the prior roster, is sound where the rest is. -/
theorem RostersSound.emptied {s t : State} (h : RostersSound s)
    (hcu : t.cu.loaded = s.cu.loaded ∧ t.cu.identity = s.cu.identity) (ha : t.ru.active = s.ru.active)
    (hprior : t.ru.prior = s.ru.prior ∧ t.ru.grace = s.ru.grace ∨ t.ru.prior = none ∧ t.ru.grace = none)
    (hsu : t.su = .powerOn ∨ t.su = s.su) : RostersSound t := by
  obtain ⟨hguard, hactive, hp, hstaging⟩ := h
  have hown : t.ownId = s.ownId := by simp only [State.ownId, CommandUnit.ownIdentity, hcu]
  refine ⟨fun hl => ?_, by rwa [ActiveSound, ha, hown], ?_, ?_⟩
  · obtain ⟨hr, hpr, hst⟩ := hguard (hcu.1.symm.trans hl)
    refine ⟨by rw [ha, hr], ?_, ?_⟩
    · rcases hprior with ⟨hprior, -⟩ | ⟨hprior, -⟩ <;> simp [hprior, hpr]
    · rcases hsu with hsu | hsu <;> simp [hsu, hst, StagingUnit.powerOn]
  · rcases hprior with ⟨hprior, hgrace⟩ | ⟨hprior, hgrace⟩
    · rwa [PriorSound, hprior, hgrace, ha, hown]
    · exact ⟨by rw [hprior, hgrace]; rfl, by simp [hprior]⟩
  · rcases hsu with hsu | hsu
    · rw [StagingSound, hsu]
      exact ⟨rfl, rfl⟩
    · simpa only [StagingSound, hsu, ha, hown] using hstaging

/-- The power-on values hold no roster and no staging (R82, R105). -/
theorem RostersSound.of_powerOn {s : State} (hru : s.ru = .powerOn) (hsu : s.su = .powerOn) : RostersSound s := by
  simp only [RostersSound, IdentityGuards, ActiveSound, PriorSound, StagingSound, hru, hsu]
  exact ⟨fun _ => ⟨rfl, rfl, rfl⟩, ⟨rfl, .inl ⟨rfl, rfl⟩⟩, ⟨rfl, nofun⟩, rfl, rfl⟩

theorem RostersSound.active_records {s : State} (h : RostersSound s) : RecordsSound s.ru.active.records := by
  obtain ⟨-, ⟨-, ⟨hempty, -⟩ | ⟨hrecords, -⟩⟩, -, -⟩ := h
  · rw [hempty]
    exact ⟨Nat.zero_le _, rfl, .nil, nofun⟩
  · exact hrecords

/-- A staging that is FILLING with the check unit idle has the fold context of its records. -/
theorem RostersSound.filling {s : State} {b : StagingBody} (h : RostersSound s) (hb : s.su.staging = .filling b)
    (hjob : s.su.job = .idle) : RecordsSound b.records ∧ b.context = foldContext b.records := by
  obtain ⟨-, -, -, hstaging⟩ := h
  simp only [StagingSound, hb, hjob] at hstaging
  obtain ⟨-, hrecords, ⟨-, hcontext⟩ | ⟨_, hfold, -⟩⟩ := hstaging
  · exact ⟨hrecords, hcontext⟩
  · cases hfold

/-- A staging of a loaded part put in place of another. -/
theorem RostersSound.withStaging {s : State} (h : RostersSound s) (hl : s.cu.loaded = true) (u : StagingUnit)
    (hu : StagingSound { s with su := u }) : RostersSound { s with su := u } := by
  obtain ⟨-, hactive, hprior, -⟩ := h
  exact ⟨fun hn => absurd hl (Bool.eq_false_iff.1 hn), hactive, hprior, hu⟩

theorem RostersSound.opened {s : State} (h : RostersSound s) (hl : s.cu.loaded = true) (m : Mode) (w : Word) :
    RostersSound { s with su := { staging := .filling (s.openedBody m w), job := .idle, timer := s.stagingTimerStart } } := by
  refine h.withStaging hl _ ?_
  cases m
  · exact ⟨rfl, ⟨Nat.zero_le _, rfl, .nil, nofun⟩, .inl ⟨rfl, rfl⟩⟩
  · exact ⟨rfl, h.active_records, .inl ⟨rfl, h.2.1.1⟩⟩

theorem RostersSound.loaded {s : State} (h : RostersSound s) (hl : s.cu.loaded = true) {b : StagingBody} {l : List Byte} {n : Nat}
    {w : Word} (hb : s.su.staging = .filling b) (hn : blockCount l = some n)
    (hload : b.loadRefusal s.su.job w (blockRecords l n) = none) :
    RostersSound { s with su := { staging := .filling (b.append (blockRecords l n)), job := .blockFold b.context (l.drop 1)
                                  timer := s.stagingTimerStart } } := by
  obtain ⟨hjob, hroom, hfit⟩ := StagingBody.loadRefusal_eq_none hload
  obtain ⟨hrecords, hcontext⟩ := h.filling hb hjob
  obtain ⟨-, -, hlen⟩ := blockCount_eq_some hn
  have himages : recordImages ((blockRecords l n).map (·.1)) = l.drop 1 := by
    rw [recordImages_blockRecords (Nat.le_of_eq hlen.symm) fun x hx => (hfit.2.2 x hx).2.2, List.take_of_length_le]
    simp [hlen]
  refine h.withStaging hl _ ⟨rfl, hrecords.append hroom hfit, .inr ⟨l.drop 1, rfl, ?_⟩⟩
  show crcFold b.context (l.drop 1) = foldContext (b.records ++ _)
  rw [hcontext, foldContext_append, himages]

/-- What a CONFIRM that R96 takes has found. -/
theorem State.confirmRefusal_eq_none {s : State} {b : StagingBody} {w : Word} {g : Half} {n : Nat}
    (h : s.confirmRefusal b w g n = none) :
    s.su.job = .idle ∧ n = b.records.length ∧ g ≠ 0 ∧ g ≠ s.ru.active.generation
      ∧ (b.records.filter (fun r => r.master)).length = 1 ∧ ∃ r ∈ b.records, r.identity = s.ownId := by
  unfold State.confirmRefusal at h
  repeat' split at h
  all_goals try cases h
  rename_i hjob hcount hgen hmaster hself _
  obtain ⟨hzero, hactive⟩ := not_or.1 hgen
  refine ⟨Classical.not_not.1 hjob, Classical.not_not.1 hcount, hzero, hactive, Classical.not_not.1 hmaster, ?_⟩
  rw [Option.isNone_iff_eq_none, recordOf, List.find?_eq_none] at hself
  simpa using hself

theorem RostersSound.confirming {s : State} (h : RostersSound s) (hl : s.cu.loaded = true) {b : StagingBody} {w : Word}
    {t : ConfirmTicket} (hb : s.su.staging = .filling b) (hc : s.confirmRefusal b w t.generation t.count = none) :
    RostersSound { s with su := { staging := .confirming b t, job := .finish b.context (trailer t.generation t.count)
                                  timer := s.stagingTimerStart } } := by
  obtain ⟨hjob, hcount, hzero, hgen, hmaster, hself⟩ := State.confirmRefusal_eq_none hc
  obtain ⟨hrecords, hcontext⟩ := h.filling hb hjob
  have hne : b.records ≠ [] := by
    rintro hnil
    simp [hnil] at hmaster
  exact h.withStaging hl _ ⟨rfl, rfl, hcontext, hcount, ⟨hrecords, hne, hmaster, hself, hzero⟩, hgen⟩

theorem RostersSound.confirmed {s : State} (h : RostersSound s) {b : StagingBody} {t : ConfirmTicket} {w : Word} {l : List Byte}
    (hj : s.su.job = .finish w l) (hb : s.su.staging = .confirming b t) :
    RostersSound { s with su := { staging := .confirmed b { generation := t.generation, count := t.count, check := crcFold w l
                                                            context := b.context, owner := b.owner }
                                  job := .idle, timer := s.stagingTimerStart } } := by
  obtain ⟨hguard, hactive, hprior, hstaging⟩ := h
  simp only [StagingSound, hb, hj, Job.finish.injEq] at hstaging
  obtain ⟨-, ⟨rfl, rfl⟩, hcontext, hcount, hfit, hgen⟩ := hstaging
  refine ⟨fun hn => ?_, hactive, hprior, rfl, rfl, hcontext, rfl, rfl, hcount, ?_, hfit, hgen⟩
  · obtain ⟨-, -, hempty⟩ := hguard hn
    rw [hb] at hempty
    cases hempty
  · rw [hcontext, foldContext, rosterCheckWord, checkWord, checkWord, crcFold_append]

theorem RostersSound.folded {s : State} (h : RostersSound s) : RostersSound s.blockFoldDone := by
  obtain ⟨hguard, hactive, hprior, hstaging⟩ := h
  unfold State.blockFoldDone
  split
  case h_2 | h_3 => exact ⟨hguard, hactive, hprior, hstaging⟩
  rename_i w l hjob
  cases hst : s.su.staging with
  | empty => simp [StagingSound, hst, hjob] at hstaging
  | confirming b t => simp [StagingSound, hst, hjob] at hstaging
  | confirmed b r => simp [StagingSound, hst, hjob] at hstaging
  | filling b =>
    simp only [StagingSound, hst, hjob, Job.blockFold.injEq, reduceCtorEq, false_and, false_or] at hstaging
    obtain ⟨htimer, hrecords, input, ⟨rfl, rfl⟩, hfold⟩ := hstaging
    refine ⟨fun hn => ?_, hactive, hprior, htimer, hrecords, .inl ⟨rfl, hfold⟩⟩
    obtain ⟨-, -, hempty⟩ := hguard hn
    rw [hst] at hempty
    cases hempty

/-- An enactment makes the confirmed roster the active one, and the active one, if any, the prior one (R106). -/
theorem RostersSound.swapRosters {s : State} (h : RostersSound s) {b : StagingBody} {r : ConfirmedRecord}
    (hb : s.su.staging = .confirmed b r) : RostersSound (s.swapRosters b r) := by
  obtain ⟨hguard, hactive, -, hstaging⟩ := h
  simp only [StagingSound, hb] at hstaging
  obtain ⟨-, -, hcontext, hrcontext, -, -, -, hfit, hgen⟩ := hstaging
  refine ⟨fun hn => ?_, ⟨hrcontext.trans hcontext, .inr hfit⟩, ⟨?_, fun p hp => ?_⟩, rfl, rfl⟩
  · obtain ⟨-, -, hempty⟩ := hguard hn
    rw [hb] at hempty
    cases hempty
  · simp only [State.swapRosters]
    split <;> rfl
  · obtain ⟨-, ⟨hempty, -⟩ | hold⟩ := hactive
    · simp [State.swapRosters, hempty] at hp
    · have hne : s.ru.active.records ≠ [] := hold.2.1
      simp only [State.swapRosters, List.isEmpty_iff, hne, if_false, Option.some.injEq] at hp
      subst hp
      exact ⟨hgen.symm, hold⟩

theorem RostersSound.enterDormant {s : State} (h : RostersSound s) : RostersSound s.enterDormant :=
  h.emptied (by simp) (by simp) (.inr (by simp)) (.inl (by simp))

theorem RostersSound.completed {s : State} (h : RostersSound s) (p : Port) : RostersSound (s.completed p) := by
  simp only [State.completed]
  split
  · exact h
  · have hu (q : Eqm) : RostersSound { s with eqm := q } := h
    split
    · split
      · exact (hu _).enterDormant
      · exact hu _
    · exact hu _
    · exact hu _

theorem RostersSound.cmdSleep {s : State} (h : RostersSound s) (r : Request) : RostersSound (s.cmdSleep r) := by
  have hoffered : RostersSound (({ s with cu := { s.cu with sleepPending := true } } : State).offer .c .c0 (s.sleepEntry r true)) :=
    h.congr_eq (by simp) (by simp) (by simp) (by simp) (by simp)
  simp only [State.cmdSleep]
  split
  · exact h.congr_eq (by simp [State.refuse, State.countRefusal]) (by simp) (by simp) (by simp) (by simp)
  · split
    · exact h.congr_eq (by simp) (by simp) (by simp) (by simp) (by simp)
    · split
      · exact hoffered
      · exact hoffered.enterDormant

/-- The identity is loaded into a part without rosters and staging, so nothing that names it is there. -/
theorem RostersSound.identity {s : State} (h : RostersSound s) (w : Word) (hl : s.cu.loaded = false) :
    RostersSound ((({ s with cu := { s.cu with identity := w, loaded := true } } : State).settleIfReady .a).settleIfReady .b) := by
  obtain ⟨hguard, ⟨hcontext, hactive⟩, ⟨hgrace, -⟩, hstaging⟩ := h
  obtain ⟨hnil, hprior, hempty⟩ := hguard hl
  have hnamed : RostersSound { s with cu := { s.cu with identity := w, loaded := true } } := by
    refine ⟨nofun, ⟨hcontext, ?_⟩, ⟨hgrace, fun p hp => ?_⟩, ?_⟩
    · rcases hactive with hactive | hactive
      · exact .inl hactive
      · exact absurd hnil hactive.2.1
    · simp [hprior] at hp
    · simpa only [StagingSound, hempty] using hstaging
  exact hnamed.congr_eq (by simp) (by simp) (by simp) (by simp) (by simp)

theorem stateClosed_rosters : StateClosed RostersSound where
  books _ _ _ _ _ h := h
  offer s p c e _ h := h.congr_eq (by simp) (by simp) (by simp) (by simp) (by simp)
  arbitrate s p h := h.congr_eq (by simp) (by simp) (by simp) (by simp) (by simp)
  tick s h := h.congr ⟨rfl, rfl⟩ rfl rfl (by simp [State.tick, tickTimer]) ⟨rfl, rfl, by simp [State.tick, tickTimer]⟩
  wakeInput _ _ h := h
  presenceAsserted s e _ h := h.congr_eq (by simp) (by simp) (by simp) (by simp) (by simp)
  presenceNegated s e _ h := h.congr_eq (by simp) (by simp) (by simp) (by simp) (by simp)
  capture _ _ _ h := h
  wake s _ h := h.congr_eq (by simp) (by simp) (by simp) (by simp) (by simp)
  settleExpired s e _ h := h.congr_eq (by simp) (by simp) (by simp) (by simp) (by simp)
  greetExpired s e _ h := h.congr_eq (by simp) (by simp) (by simp) (by simp) (by simp)
  fadeExpired s e _ h := h.congr_eq (by simp) (by simp) (by simp) (by simp) (by simp)
  rouseExpired s e _ h := h.congr_eq (by simp) (by simp) (by simp) (by simp) (by simp)
  validGreet s e g h := h.congr_eq (by simp) (by simp) (by simp) (by simp) (by simp)
  completed s p h := h.completed p
  cmdSleep s r h := h.cmdSleep r
  restarted s _ := .of_powerOn (by simp) (by simp)
  poweredOn s _ := .of_powerOn rfl rfl
  identity s w hl h := h.identity w hl
  report _ h := h
  hold _ _ h := h
  rule _ _ _ _ _ _ h := h
  policy _ _ _ h := h
  timing s x v _ _ h := h.congr_eq (by simp) (by simp) (by simp) (by simp) (by simp)
  emptied s h := h.emptied ⟨rfl, rfl⟩ rfl (.inl ⟨rfl, rfl⟩) (.inl rfl)
  opened s m w hl h := h.opened hl m w
  loaded s b l n w hl hb hn hload h := h.loaded hl hb hn hload
  confirming s b w t hl hb hc h := h.confirming hl hb hc
  folded s h := h.folded
  confirmed s b t w l hj hb h := h.confirmed hj hb
  graceEnded s h := h.emptied ⟨rfl, rfl⟩ rfl (.inr ⟨rfl, rfl⟩) (.inr rfl)
  changeover s b r hb h := (h.swapRosters hb).congr_eq (by simp) (by simp) (by simp) (by simp) (by simp)
  interpret s f h := h.congr_eq (by simp) (by simp) (by simp) (by simp) (by simp)

/-- Settles O60: the staging commands build what R84 says, and an enactment makes the confirmed roster the active one. -/
theorem stepKeepsRostersAndStaging : Obligations.StepKeepsRostersAndStaging := fun _ _ hs hstep =>
  stateClosed_rosters.step (fun _ _ h => h) hs hstep

end Sys2Proof.Machine
end

section
/-! The judgements (R62 to R70): the own adjacencies, the cut map as a set, what the computation of R65 gives, and how an event of a link
monitor can change the state. -/

namespace Sys2Proof.Machine

/-! ## The cut map (R68) -/

theorem mem_cutEnter (j k : Nat) (l : List Nat) : j ∈ cutEnter k l ↔ j = k ∨ j ∈ l := by
  induction l with
  | nil => simp [cutEnter]
  | cons x l ih =>
    simp only [cutEnter]
    split
    · simp
    · split
      · rename_i hk
        simp [hk]
      · rw [List.mem_cons, List.mem_cons, ih]
        exact or_left_comm

theorem pairwise_cutEnter {k : Nat} {l : List Nat} (h : l.Pairwise (· < ·)) : (cutEnter k l).Pairwise (· < ·) := by
  induction l with
  | nil => simp [cutEnter]
  | cons x l ih =>
    obtain ⟨hx, hl⟩ := List.pairwise_cons.1 h
    simp only [cutEnter]
    split
    · rename_i hk
      exact List.pairwise_cons.2 ⟨fun y hy => (List.mem_cons.1 hy).elim (fun he => he ▸ hk) (fun hy => Nat.lt_trans hk (hx y hy)), h⟩
    · split
      · exact h
      · refine List.pairwise_cons.2 ⟨fun y hy => ?_, ih hl⟩
        rcases (mem_cutEnter y k l).1 hy with rfl | hy
        · omega
        · exact hx y hy

theorem mem_cutRemove (j k : Nat) (l : List Nat) : j ∈ cutRemove k l ↔ j ∈ l ∧ j ≠ k := by simp [cutRemove]

theorem pairwise_cutRemove {k : Nat} {l : List Nat} (h : l.Pairwise (· < ·)) : (cutRemove k l).Pairwise (· < ·) := h.filter _

/-- The own adjacency stands in the cut map exactly while its end does not stand MATCHED; the others stay as they were. -/
theorem mem_cutAlign (j : Nat) (x : Option Expectation) (st : Standing) (l : List Nat) :
    j ∈ cutAlign x st l ↔
      ((∃ y, x = some y ∧ y.adjacency = j) ∧ st ≠ .matched) ∨ (¬ (∃ y, x = some y ∧ y.adjacency = j) ∧ j ∈ l) := by
  cases x with
  | none => simp [cutAlign]
  | some y =>
    simp only [cutAlign, Option.some.injEq, exists_eq_left']
    split
    · rename_i h
      rw [mem_cutRemove]
      constructor
      · exact fun hj => .inr ⟨Ne.symm hj.2, hj.1⟩
      · rintro (⟨-, hn⟩ | ⟨hne, hj⟩)
        · exact absurd h hn
        · exact ⟨hj, Ne.symm hne⟩
    · rename_i h
      rw [mem_cutEnter]
      by_cases hj : y.adjacency = j
      · simp [hj, h]
      · simp [hj, Ne.symm hj]

theorem pairwise_cutAlign {x : Option Expectation} {st : Standing} {l : List Nat} (h : l.Pairwise (· < ·)) :
    (cutAlign x st l).Pairwise (· < ·) := by
  unfold cutAlign
  split
  · exact h
  · split
    · exact pairwise_cutRemove h
    · exact pairwise_cutEnter h

/-! ## Expectations (R62, R63) -/

/-- The adjacency an end faces is that before the car of the record, or that behind it. -/
theorem expectation_adjacency {rs : List Record} {r : Record} {e : End} {x : Expectation} (h : expectation rs r e = some x) :
    (facesLead r.orientation e = true ∧ 2 ≤ r.position ∧ x.adjacency = r.position - 1)
      ∨ (facesLead r.orientation e = false ∧ r.position < rs.length ∧ x.adjacency = r.position) := by
  unfold expectation at h
  split at h
  · rename_i hlead
    split at h
    · rename_i hp
      obtain ⟨_, -, rfl⟩ := Option.map_eq_some_iff.1 h
      exact .inl ⟨hlead, hp, rfl⟩
    · cases h
  · rename_i hlead
    split at h
    · rename_i hp
      obtain ⟨_, -, rfl⟩ := Option.map_eq_some_iff.1 h
      exact .inr ⟨by simpa using hlead, hp, rfl⟩
    · cases h

/-- The two ends of a car face different adjacencies. -/
theorem expectation_adjacency_ne {rs : List Record} {r : Record} {x y : Expectation} (ha : expectation rs r .a = some x)
    (hb : expectation rs r .b = some y) : x.adjacency ≠ y.adjacency := by
  have hends : facesLead r.orientation .b = !facesLead r.orientation .a := by cases r.orientation <;> rfl
  rcases expectation_adjacency ha with ⟨hl, hp, hx⟩ | ⟨hl, hp, hx⟩ <;>
    rcases expectation_adjacency hb with ⟨hl', hp', hy⟩ | ⟨hl', hp', hy⟩ <;> simp [hends, hl] at hl' <;> omega

theorem State.expects_eq_some {s : State} {e : End} {x : Expectation} (h : s.expects e = some x) :
    ∃ r, ownRecord s.ownId s.ru.active.records = some r ∧ expectation s.ru.active.records r e = some x := by
  unfold State.expects ownExpectation at h
  split at h
  · exact ⟨_, by assumption, h⟩
  · cases h

theorem State.facesAdjacency_a_ne_b {s : State} {j : Nat} (ha : s.facesAdjacency .a j) : ¬ s.facesAdjacency .b j := by
  obtain ⟨x, hx, rfl⟩ := ha
  rintro ⟨y, hy, he⟩
  obtain ⟨r, hr, hx⟩ := State.expects_eq_some hx
  obtain ⟨r', hr', hy⟩ := State.expects_eq_some hy
  cases hr.symm.trans hr'
  exact expectation_adjacency_ne hx hy he.symm

theorem forall_end {p : End → Prop} : (∀ e, p e) ↔ p .a ∧ p .b :=
  ⟨fun h => ⟨h .a, h .b⟩, fun h e => match e with | .a => h.1 | .b => h.2⟩

theorem exists_end {p : End → Prop} : (∃ e, p e) ↔ p .a ∨ p .b :=
  ⟨fun h => match h with | ⟨.a, h⟩ => .inl h | ⟨.b, h⟩ => .inr h, fun h => h.elim (⟨.a, ·⟩) (⟨.b, ·⟩)⟩

/-! ## The computation of R65 -/

theorem State.mem_cutAlign_expects (s : State) (e : End) (k : Nat) (st : Standing) (l : List Nat) :
    k ∈ cutAlign (s.expects e) st l ↔ (s.facesAdjacency e k ∧ st ≠ .matched) ∨ (¬ s.facesAdjacency e k ∧ k ∈ l) :=
  mem_cutAlign k (s.expects e) st l

theorem State.expects_congr {s t : State} (hid : t.ownId = s.ownId) (hrs : t.ru.active.records = s.ru.active.records) (e : End) :
    t.expects e = s.expects e := by rw [State.expects, State.expects, hid, hrs]

theorem State.facesAdjacency_congr {s t : State} (hid : t.ownId = s.ownId) (hrs : t.ru.active.records = s.ru.active.records)
    (e : End) (k : Nat) : t.facesAdjacency e k ↔ s.facesAdjacency e k := by
  rw [State.facesAdjacency, State.facesAdjacency, State.expects_congr hid hrs]

theorem State.ownId_congr {s t : State} (h : t.cu = s.cu) : t.ownId = s.ownId := by rw [State.ownId, State.ownId, h]

theorem State.recompute_standing (s : State) (b : Bool) (e : End) :
    (s.recompute b).ru.standing e = standingOf (s.clm e) (s.expects e) := by cases e <;> rfl

theorem State.recompute_cutMap (s : State) (b : Bool) :
    (s.recompute b).ru.cutMap = cutAlign (s.expects .b) (standingOf (s.clm .b) (s.expects .b))
      (cutAlign (s.expects .a) (standingOf (s.clm .a) (s.expects .a)) (if b then [] else s.ru.cutMap)) := rfl

/-- The judgements read these fields of the state alone. -/
theorem State.judgedFrom.congr {s t : State} {other : Nat → Prop} (h : s.judgedFrom other)
    (hclm : ∀ e x, standingOf (t.clm e) x = standingOf (s.clm e) x) (hst : ∀ e, t.ru.standing e = s.ru.standing e)
    (hcut : t.ru.cutMap = s.ru.cutMap) (hauth : t.ru.authority = s.ru.authority)
    (hrs : t.ru.active.records = s.ru.active.records) (hid : t.ownId = s.ownId) (hset : t.ng.settled = s.ng.settled) :
    t.judgedFrom other := by
  obtain ⟨hstand, hmap, hauthority, hsettled⟩ := h
  refine ⟨fun e => ?_, fun k => ?_, ?_, ?_⟩
  · rw [hst, hclm, State.expects_congr hid hrs, hstand]
  · simp only [hcut, hst, State.facesAdjacency_congr hid hrs]
    exact hmap k
  · rw [hauth, hid, hrs, hcut, hauthority]
  · rw [hset, hsettled]
    show settledOf (s.ru.standing .a) (s.ru.standing .b) = settledOf (t.ru.standing .a) (t.ru.standing .b)
    rw [hst, hst]

/-- The computation judges from the links, the roster and the cut map before; with `clear` from the links and the roster alone (R69). -/
theorem State.recompute_judgedFrom (s : State) (b : Bool) : (s.recompute b).judgedFrom (fun k => b = false ∧ k ∈ s.ru.cutMap) := by
  have hid : (s.recompute b).ownId = s.ownId := State.ownId_congr (by simp)
  have hrs : (s.recompute b).ru.active.records = s.ru.active.records := by simp
  refine ⟨fun e => ?_, fun k => ?_, ?_, rfl⟩
  · rw [State.recompute_standing, State.expects_congr hid hrs]
    simp
  · have hold : k ∈ (if b then [] else s.ru.cutMap) ↔ b = false ∧ k ∈ s.ru.cutMap := by cases b <;> simp
    have hne : s.facesAdjacency .a k → ¬ s.facesAdjacency .b k := State.facesAdjacency_a_ne_b
    simp only [State.recompute_cutMap, State.recompute_standing, State.facesAdjacency_congr hid hrs, State.mem_cutAlign_expects,
      forall_end, exists_end, hold]
    by_cases hb : s.facesAdjacency .b k
    · have ha : ¬ s.facesAdjacency .a k := fun ha => hne ha hb
      simp [ha, hb]
    · simp [hb]
  · rw [hid]
    rfl

theorem State.judgedFrom.imp {s : State} {p q : Nat → Prop} (h : s.judgedFrom p) (hpq : ∀ k, p k ↔ q k) : s.judgedFrom q := by
  obtain ⟨hstand, hmap, hrest⟩ := h
  exact ⟨hstand, fun k => by rw [hmap k, hpq k], hrest⟩

/-- A link change judges from the new links and keeps the other adjacencies of the cut map (R65, R68). -/
theorem State.linkChange_judgedFrom (s : State) : s.linkChange.judgedFrom (· ∈ s.ru.cutMap) :=
  ((s.recompute_judgedFrom false).congr (by simp) (by simp) (by simp) (by simp) (by simp) (State.ownId_congr (by simp))
    (by simp)).imp (by simp)

/-- What is left to a loss once the monitor and its port are set: the purge and the link change. -/
theorem State.lose_eq (s : State) (e : End) (cause : LossCause) (cand : Option Candidate) :
    ∃ u : State, s.lose e cause cand = (u.linkLossPurge (End.toPort e)).linkChange
      ∧ u.ru = s.ru ∧ u.power = s.power ∧ u.cu = s.cu ∧ u.su = s.su
      ∧ (u.eqm = s.eqm ∨ u.eqm = s.eqm.abandonLinkControl (End.toPort e))
      ∧ ∀ e', u.clm e' = if e' = e then s.lostClm e cause cand else s.clm e' := by
  have hclm := State.lose_clm s e
  unfold State.lose at hclm ⊢
  split
  · refine ⟨_, rfl, by simp, by simp, by simp, by simp, .inr (by simp [State.enterDark]), fun e' => ?_⟩
    rw [← hclm e' cause cand, if_pos (by assumption)]
    simp [State.loseToDark]
  · refine ⟨_, rfl, by simp, by simp, by simp, by simp, .inl (by simp), fun e' => ?_⟩
    rw [← hclm e' cause cand, if_neg (by assumption)]
    simp [State.loseToGreeting]

theorem State.lose_judgedFrom (s : State) (e : End) (cause : LossCause) (cand : Option Candidate) :
    (s.lose e cause cand).judgedFrom (· ∈ s.ru.cutMap) := by
  obtain ⟨u, hu, hru, -⟩ := s.lose_eq e cause cand
  rw [hu, ← hru]
  simpa using (u.linkLossPurge (End.toPort e)).linkChange_judgedFrom

theorem State.wake_judgedFrom (s : State) : s.wake.judgedFrom (fun _ => False) := by
  unfold State.wake
  exact ((State.recompute_judgedFrom ((({ s with power := .active } : State).enterDark .a).enterDark .b) true).congr
    (by simp) (by simp) (by simp) (by simp) (by simp) (State.ownId_congr (by simp)) (by simp)).imp (by simp)

theorem State.enterDormant_judgedFrom (s : State) : s.enterDormant.judgedFrom (fun _ => False) := by
  have hquiet (u : State) : ({ u.recompute true with
      ng := { (u.recompute true).ng with timer := none }
      cu := { (u.recompute true).cu with sleepPending := false }, power := .dormant } : State).judgedFrom (fun _ => False) := by
    refine ((u.recompute_judgedFrom true).congr (fun e x => ?_) (fun e => rfl) rfl rfl rfl rfl rfl).imp (by simp)
    cases e <;> rfl
  exact hquiet _

/-- An enactment judges from the links and the new roster alone (R69, R106). -/
theorem State.changeover_judgedFrom (s : State) (b : StagingBody) (r : ConfirmedRecord) :
    ((((s.swapRosters b r).recompute true).reevaluate.purgeIfLeft s.ru .a).purgeIfLeft s.ru .b).judgedFrom (fun _ => False) :=
  ((State.recompute_judgedFrom (s.swapRosters b r) true).congr (by simp) (by simp) (by simp) (by simp) (by simp)
    (State.ownId_congr (by simp)) (by simp)).imp (by simp)

/-! ## How an event of a link monitor can change the state -/

/-- The state after an event of the monitor of an end: the monitor alone, with what its end stands for kept; entry to DARK of a link that
is not JOINED or FADING; entry to JOINED with its link change; or a loss. -/
inductive State.LinkEvent (s : State) (e : End) : State → Prop
  | still (c : Clm) (hst : ∀ x, standingOf c x = standingOf (s.clm e) x) (hj : c.link.isJoined = (s.clm e).link.isJoined)
      (hl : c.link = .listen ↔ (s.clm e).link = .listen) : LinkEvent s e (s.setClm e c)
  | dark (hj : (s.clm e).link.isJoined = false) (hl : (s.clm e).link ≠ .listen) : LinkEvent s e (s.enterDark e)
  | joins (c : Clm) (hl : (s.clm e).link = .greeting) (hc : c.link = .joined) : LinkEvent s e (s.setClm e c).linkChange
  | loses (c : Clm) (cause : LossCause) (cand : Option Candidate) (hj : (s.clm e).link.isJoined = true)
      (hc : c.link = (s.clm e).link) : LinkEvent s e ((s.setClm e c).lose e cause cand)

namespace State.LinkEvent

variable {s : State} {e : End}

theorem refl : s.LinkEvent e s := by
  simpa using still (s := s) (e := e) (s.clm e) (fun _ => rfl) rfl Iff.rfl

theorem standingOf_of_not_joined {c d : Clm} (hc : c.link.isJoined = false) (hd : d.link.isJoined = false) (x : Option Expectation) :
    standingOf d x = standingOf c x := by
  simp [standingOf, hc, hd]

/-- A link that is not up before and after. -/
theorem stillDown (c : Clm) (hd : (s.clm e).link.isJoined = false) (hc : c.link.isJoined = false)
    (hl : c.link = .listen ↔ (s.clm e).link = .listen) : s.LinkEvent e (s.setClm e c) :=
  still c (standingOf_of_not_joined hd hc) (by rw [hc, hd]) hl

/-- A monitor with its link state and neighbour kept. -/
theorem stillSame (c : Clm) (hl : c.link = (s.clm e).link) (hn : c.neighbour = (s.clm e).neighbour) : s.LinkEvent e (s.setClm e c) :=
  still c (fun x => by simp only [standingOf, hl, hn]) (by rw [hl]) (by rw [hl])

theorem settleIfReady : s.LinkEvent e (s.settleIfReady e) := by
  unfold State.settleIfReady
  split
  · rename_i h
    exact stillDown _ (by rw [h.1]; rfl) rfl (by simp [h.1, Clm.enterSettling])
  · exact refl

theorem presenceAsserted : s.LinkEvent e (s.presenceAsserted e) := by
  unfold State.presenceAsserted
  split
  case h_1 => exact settleIfReady
  case h_2 hl =>
    exact still _ (fun x => by simp [standingOf, hl, LinkState.isJoined]) (by rw [hl]; rfl) (by simp [hl])
  all_goals exact refl

theorem presenceNegated : s.LinkEvent e (s.presenceNegated e) := by
  unfold State.presenceNegated
  split
  case h_4 hl =>
    exact still _ (fun x => by simp [standingOf, hl, LinkState.isJoined]) (by rw [hl]; rfl) (by simp [hl])
  case h_1 hl | h_2 hl | h_3 hl => exact dark (by rw [hl]; rfl) (by simp [hl])
  all_goals exact refl

theorem settleExpired : s.LinkEvent e (s.settleExpired e) := by
  unfold State.settleExpired
  split
  · rename_i hl
    exact stillDown _ (by rw [hl]; rfl) rfl (by simp [hl, Clm.enterGreeting])
  · exact stillSame _ rfl rfl

theorem rouseExpired : s.LinkEvent e (s.rouseExpired e) := by
  unfold State.rouseExpired
  split <;> exact stillSame _ rfl rfl

theorem fadeExpired : s.LinkEvent e (s.fadeExpired e) := by
  unfold State.fadeExpired
  split
  · rename_i hl
    have hlose : s.loseToDark e .uncoupled = (s.setClm e (s.clm e)).lose e .uncoupled none := by
      rw [State.setClm_clm, State.lose, if_pos hl]
    rw [hlose]
    exact loses _ _ _ (by rw [hl]; rfl) rfl
  · exact stillSame _ rfl rfl

/-- An unanswered GREET keeps GREETING or gives MUTE (R33). -/
theorem greetInGreeting_link {c : Clm} (t : Timing) (h : c.link = .greeting) :
    (c.greetInGreeting t).link = .greeting ∨ (c.greetInGreeting t).link = .mute := by
  simp only [Clm.greetInGreeting]
  split
  · exact .inr rfl
  · exact .inl h

theorem greetExpired : s.LinkEvent e (s.greetExpired e) := by
  have hjoined (hj : (s.clm e).link.isJoined = true) :
      s.LinkEvent e ((s.setClm e { s.clm e with greet := startMs s.cu.timing.greetPeriod }).greetInJoined e) := by
    simp only [State.greetInJoined, State.clm_setClm_self, State.setClm_setClm]
    split
    · exact loses _ _ _ hj rfl
    · exact stillSame _ rfl rfl
  simp only [State.greetExpired, State.clm_setClm_self, State.setClm_setClm]
  split <;> rename_i hl
  · rw [State.setClm_cu]
    rcases greetInGreeting_link (c := { s.clm e with greet := startMs s.cu.timing.greetPeriod }) s.cu.timing hl with h | h
    · exact stillDown _ (by rw [hl]; rfl) (by rw [h]; rfl) (by rw [h, hl])
    · exact stillDown _ (by rw [hl]; rfl) (by rw [h]; rfl) (by rw [h, hl]; simp)
  · exact stillSame _ rfl rfl
  · exact hjoined (by rw [hl]; rfl)
  · exact hjoined (by rw [hl]; rfl)
  all_goals exact stillSame _ rfl rfl

theorem validGreet (g : GreetBody) : s.LinkEvent e (s.validGreet e g) := by
  have hjoined (hj : (s.clm e).link.isJoined = true) : s.LinkEvent e
      (if (s.clm e).isFromNeighbour g && s.isNamed e g then s.setClm e ((s.clm e).keepAlive g)
        else s.lose e .changed (some g.candidate)) := by
    split
    · refine still _ (fun x => ?_) rfl Iff.rfl
      simp only [standingOf, Clm.keepAlive]
      cases (s.clm e).neighbour <;> cases x <;> rfl
    · simpa using loses (s := s) (e := e) (s.clm e) .changed (some g.candidate) hj rfl
  simp only [State.validGreet]
  split <;> rename_i hl
  · split
    · exact joins _ hl rfl
    · exact stillSame _ rfl rfl
  · exact stillDown _ (by rw [hl]; rfl) rfl (by simp [hl, Clm.enterGreeting])
  · exact hjoined (by rw [hl]; rfl)
  · exact hjoined (by rw [hl]; rfl)
  all_goals exact refl

end State.LinkEvent

end Sys2Proof.Machine
end

section
/-! The judgements, the guards of the identity, and the cut map over a step (R64 to R70, R132, R133). -/

namespace Sys2Proof.Machine

/-! ## Judgements and identity guards -/

theorem State.judgedFrom.judged {s : State} {other : Nat → Prop} (h : s.judgedFrom other) : Judged s := by
  obtain ⟨hstand, -, hauth, hset⟩ := h
  exact ⟨hstand, hauth, hset⟩

/-- Without an identity there is nothing that one has to guard: what a command may leave of it. -/
theorem IdentityGuards.congr {s t : State} (h : IdentityGuards s) (hl : t.cu.loaded = s.cu.loaded)
    (ha : t.ru.active = s.ru.active) (hp : t.ru.prior = s.ru.prior ∨ t.ru.prior = none)
    (hsu : s.cu.loaded = false → s.su.staging = .empty → t.su.staging = .empty) : IdentityGuards t := by
  intro hn
  rw [hl] at hn
  obtain ⟨hnil, hprior, hempty⟩ := h hn
  exact ⟨by rw [ha, hnil], hp.elim (·.trans hprior) id, hsu hn hempty⟩

/-- The standings, authority and settledness are those of links, roster and cut map, and without an identity there is no roster. -/
def State.JudgedAndGuarded (s : State) : Prop := Judged s ∧ IdentityGuards s

namespace State.JudgedAndGuarded

variable {s t : State}

/-- What leaves the roster unit, the staging and what each end stands for. -/
theorem keep (h : s.JudgedAndGuarded) (hclm : ∀ e x, standingOf (t.clm e) x = standingOf (s.clm e) x) (hru : t.ru = s.ru)
    (hset : t.ng.settled = s.ng.settled) (hcu : t.cu.loaded = s.cu.loaded ∧ t.cu.identity = s.cu.identity)
    (hsu : s.cu.loaded = false → s.su.staging = .empty → t.su.staging = .empty) : t.JudgedAndGuarded := by
  obtain ⟨⟨hstand, hauth, hsettled⟩, hguard⟩ := h
  have hown : t.ownId = s.ownId := by simp only [State.ownId, CommandUnit.ownIdentity, hcu]
  refine ⟨⟨fun e => ?_, ?_, ?_⟩, hguard.congr hcu.1 (by rw [hru]) (.inl (by rw [hru])) hsu⟩
  · rw [hru, hclm, hown, hstand]
  · rw [hru, hown, hauth]
  · rw [hru, hset, hsettled]

/-- What judges anew and leaves the rosters but perhaps the prior one. -/
theorem rejudged (h : s.JudgedAndGuarded) {other : Nat → Prop} (hj : t.judgedFrom other) (hl : t.cu.loaded = s.cu.loaded)
    (ha : t.ru.active = s.ru.active) (hp : t.ru.prior = s.ru.prior ∨ t.ru.prior = none)
    (hsu : s.cu.loaded = false → s.su.staging = .empty → t.su.staging = .empty) : t.JudgedAndGuarded :=
  ⟨hj.judged, h.2.congr hl ha hp hsu⟩

/-- What changes the prior roster or the timers of the roster unit alone. -/
theorem keepJudgements (h : s.JudgedAndGuarded) (u : RosterUnit) (hu : u = { s.ru with prior := u.prior, grace := u.grace })
    (hp : u.prior = s.ru.prior ∨ u.prior = none) : ({ s with ru := u } : State).JudgedAndGuarded := by
  obtain ⟨⟨hstand, hauth, hsettled⟩, hguard⟩ := h
  rw [hu]
  refine ⟨⟨fun e => ?_, hauth, hsettled⟩, hguard.congr rfl rfl hp fun _ he => he⟩
  have hstand := hstand e
  cases e <;> exact hstand

theorem linkEvent {e : End} (h : s.JudgedAndGuarded) (he : s.LinkEvent e t) : t.JudgedAndGuarded := by
  cases he with
  | still c hst _ _ =>
    refine h.keep (fun e' x => ?_) (by simp) (by simp) (by simp) (by simp)
    rw [State.clm_setClm]
    split
    · rename_i he
      rw [he, hst]
    · rfl
  | dark hj _ =>
    refine h.keep (fun e' x => ?_) (by simp) (by simp) (by simp) (by simp)
    rw [State.enterDark_clm]
    split
    · rename_i he
      rw [he]
      refine State.LinkEvent.standingOf_of_not_joined hj ?_ x
      unfold State.darkened
      split <;> rfl
    · rfl
  | joins c _ _ => exact h.rejudged (State.linkChange_judgedFrom _) (by simp) (by simp) (.inl (by simp)) (by simp)
  | loses c cause cand _ _ => exact h.rejudged (State.lose_judgedFrom _ _ _ _) (by simp) (by simp) (.inl (by simp)) (by simp)

theorem enterDormant (h : s.JudgedAndGuarded) : s.enterDormant.JudgedAndGuarded :=
  h.rejudged s.enterDormant_judgedFrom (by simp) (by simp) (.inr (by simp)) (by simp [StagingUnit.powerOn])

theorem withEqm (h : s.JudgedAndGuarded) (q : Eqm) : ({ s with eqm := q } : State).JudgedAndGuarded :=
  h.keep (fun e x => by rw [State.clm_withEqm]) rfl rfl ⟨rfl, rfl⟩ (fun _ h => h)

theorem completed (h : s.JudgedAndGuarded) (p : Port) : (s.completed p).JudgedAndGuarded := by
  simp only [State.completed]
  split
  · exact h
  · split
    · split
      · exact (h.withEqm _).enterDormant
      · exact h.withEqm _
    · exact h.withEqm _
    · exact h.withEqm _

theorem cmdSleep (h : s.JudgedAndGuarded) (r : Request) : (s.cmdSleep r).JudgedAndGuarded := by
  have hpending : ({ s with cu := { s.cu with sleepPending := true } } : State).JudgedAndGuarded :=
    h.keep (fun e x => by cases e <;> rfl) rfl rfl ⟨rfl, rfl⟩ (fun _ h => h)
  have hoffered := hpending.keep (t := ({ s with cu := { s.cu with sleepPending := true } } : State).offer .c .c0 (s.sleepEntry r true))
    (by simp) (by simp) (by simp) (by simp) (by simp)
  simp only [State.cmdSleep]
  split
  · exact h.keep (by simp) (by simp) (by simp) (by simp [State.refuse, State.countRefusal]) (by simp)
  · split
    · exact h.keep (by simp) (by simp) (by simp) (by simp) (by simp)
    · split
      · exact hoffered
      · exact hoffered.enterDormant

/-- The identity is loaded into a part without a roster, so no end expects anything before or after. -/
theorem identity (h : s.JudgedAndGuarded) (w : Word) (hl : s.cu.loaded = false) :
    ((({ s with cu := { s.cu with identity := w, loaded := true } } : State).settleIfReady .a).settleIfReady .b).JudgedAndGuarded := by
  obtain ⟨⟨hstand, hauth, hset⟩, hguard⟩ := h
  obtain ⟨hnil, -, -⟩ := hguard hl
  have hnamed : ({ s with cu := { s.cu with identity := w, loaded := true } } : State).JudgedAndGuarded := by
    refine ⟨⟨fun e => ?_, ?_, hset⟩, nofun⟩
    · have hstand := hstand e
      rw [hnil] at hstand
      have hrs : ({ s with cu := { s.cu with identity := w, loaded := true } } : State).ru.active.records = [] := hnil
      rw [hrs]
      cases e <;> exact hstand
    · rw [hnil] at hauth
      have hrs : ({ s with cu := { s.cu with identity := w, loaded := true } } : State).ru.active.records = [] := hnil
      rw [hrs]
      exact hauth
  exact (hnamed.linkEvent (State.LinkEvent.settleIfReady (e := .a))).linkEvent (State.LinkEvent.settleIfReady (e := .b))

theorem stateClosed : StateClosed State.JudgedAndGuarded where
  books s l n x t h := h.keep (fun e x => by cases e <;> rfl) rfl rfl ⟨rfl, rfl⟩ (fun _ h => h)
  offer s p c e _ h := h.keep (by simp) (by simp) (by simp) (by simp) (by simp)
  arbitrate s p h := h.keep (fun e x => by obtain ⟨slot, hslot⟩ := s.arbitrate_clm p e; rw [hslot]; rfl) (by simp) (by simp) (by simp)
    (by simp)
  tick s h := (h.keepJudgements { s.ru with grace := tickTimer s.ru.grace } rfl (.inl rfl)).keep (fun e x => by cases e <;> rfl)
    rfl rfl ⟨rfl, rfl⟩ (fun _ h => h)
  wakeInput s v h := h.keep (fun e x => by cases e <;> rfl) rfl rfl ⟨rfl, rfl⟩ (fun _ h => h)
  presenceAsserted s e _ h :=
    (h.keep (t := s.setPresence e true) (by simp) (by simp) (by simp) (by simp) (by simp)).linkEvent .presenceAsserted
  presenceNegated s e _ h :=
    (h.keep (t := s.setPresence e false) (by simp) (by simp) (by simp) (by simp) (by simp)).linkEvent .presenceNegated
  capture s x _ h := h.keep (fun e x => by cases e <;> rfl) rfl rfl ⟨rfl, rfl⟩ (fun _ h => h)
  wake s _ h := h.rejudged s.wake_judgedFrom (by simp) (by simp) (.inl (by simp)) (by simp)
  settleExpired s e _ h := h.linkEvent .settleExpired
  greetExpired s e _ h := h.linkEvent .greetExpired
  fadeExpired s e _ h := h.linkEvent .fadeExpired
  rouseExpired s e _ h := h.linkEvent .rouseExpired
  validGreet s e g h := h.linkEvent (.validGreet g)
  completed s p h := h.completed p
  cmdSleep s r h := h.cmdSleep r
  restarted s _ := by
    refine ⟨⟨fun e => ?_, by simp [RosterUnit.powerOn, ActiveRoster.empty, authorityOf],
      by simp [NoticeGenerator.powerOn, RosterUnit.powerOn, settledOf, Standing.isSettled]⟩,
      fun _ => by simp [RosterUnit.powerOn, StagingUnit.powerOn, ActiveRoster.empty]⟩
    obtain ⟨hclm, -⟩ := ClmClosed.restarted_inputs s e
    have hdown (p l : Bool) (last : LastChange) : (Clm.darkened p l .default last).link.isJoined = false := by
      unfold Clm.darkened
      split <;> rfl
    rw [hclm]
    cases e <;> simp [RosterUnit.powerOn, ActiveRoster.empty, ownExpectation, ownRecord, recordOf, standingOf, hdown, RosterUnit.standing]
  poweredOn s _ := ⟨⟨fun e => by cases e <;> rfl, rfl, rfl⟩, fun _ => ⟨rfl, rfl, rfl⟩⟩
  identity s w hl h := h.identity w hl
  report s h := h.withEqm _
  hold s x h := h.withEqm _
  rule s i l x _ _ h := h.keep (fun e x => by cases e <;> rfl) rfl rfl ⟨rfl, rfl⟩ (fun _ h => h)
  policy s q c h := h.keep (fun e x => by cases e <;> rfl) rfl rfl ⟨rfl, rfl⟩ (fun _ h => h)
  timing s x v _ _ h := h.keep (fun e y => by simp only [State.setTiming]; split <;> cases e <;> rfl) (by simp) (by simp) (by simp) (by simp)
  emptied s h := h.keep (fun e x => by cases e <;> rfl) rfl rfl ⟨rfl, rfl⟩ (fun _ _ => rfl)
  opened s m w hl h := h.keep (fun e x => by cases e <;> rfl) rfl rfl ⟨rfl, rfl⟩ (fun hn => by simp [hl] at hn)
  loaded s b l n w hl _ _ _ h := h.keep (fun e x => by cases e <;> rfl) rfl rfl ⟨rfl, rfl⟩ (fun hn => by simp [hl] at hn)
  confirming s b w t hl _ _ h := h.keep (fun e x => by cases e <;> rfl) rfl rfl ⟨rfl, rfl⟩ (fun hn => by simp [hl] at hn)
  folded s h := by
    refine h.keep (by simp) (by simp) (by simp) (by simp) fun _ he => ?_
    unfold State.blockFoldDone
    split
    · simp [he, Staging.setContext]
    · exact he
    · exact he
  confirmed s b t w l _ hb h := h.keep (fun e x => by cases e <;> rfl) rfl rfl ⟨rfl, rfl⟩ (by simp [hb])
  graceEnded s h := h.keepJudgements _ rfl (.inr rfl)
  changeover s b r hb h := by
    refine ⟨(s.changeover_judgedFrom b r).judged, fun hn => ?_⟩
    have hloaded : s.cu.loaded = false := by simpa using hn
    obtain ⟨-, -, hempty⟩ := h.2 hloaded
    simp [hb] at hempty
  interpret s f h := by
    obtain ⟨⟨hstand, hauth, hset⟩, hguard⟩ := h
    refine ⟨?_, hguard.congr (by simp) (by simp) (.inl (by simp)) (by simp)⟩
    unfold State.interpret
    split
    · exact ⟨hstand, hauth, hset⟩
    · refine ⟨fun e => ?_, rfl, hset⟩
      have hstand := hstand e
      cases e <;> exact hstand

end State.JudgedAndGuarded

/-! ## The cut map -/

/-- The positions of a sound roster run from 1 to its length. -/
theorem RecordsSound.position_range {rs : List Record} (h : RecordsSound rs) {r : Record} (hr : r ∈ rs) :
    1 ≤ r.position ∧ r.position ≤ rs.length := by
  obtain ⟨-, hpos, -⟩ := h
  have hmem : r.position ∈ List.range' 1 rs.length := hpos ▸ List.mem_map_of_mem hr
  rw [List.mem_range'_1] at hmem
  omega

theorem mem_of_recordOf {rs : List Record} {w : Word} {r : Record} (h : recordOf rs w = some r) : r ∈ rs :=
  List.mem_of_find?_eq_some h

/-- An end of a car of a sound roster faces an adjacency from 1 to N-1. -/
theorem RecordsSound.adjacency_range {rs : List Record} (h : RecordsSound rs) {r : Record} (hr : r ∈ rs) {e : End} {x : Expectation}
    (hx : expectation rs r e = some x) : 1 ≤ x.adjacency ∧ x.adjacency < rs.length := by
  have hrange := h.position_range hr
  rcases expectation_adjacency hx with ⟨-, hp, hadj⟩ | ⟨-, hp, hadj⟩ <;> omega

/-- The adjacencies that a car's own ends face are its own adjacencies. -/
theorem State.expects_isOwnAdjacency {s : State} {e : End} {x : Expectation} (h : s.expects e = some x) :
    isOwnAdjacency s.ownPos x.adjacency = true := by
  obtain ⟨r, hr, hx⟩ := State.expects_eq_some h
  have hpos : s.ownPos = r.position := by rw [State.ownPos, ownPosition, hr]
  rw [hpos, isOwnAdjacency]
  rcases expectation_adjacency hx with ⟨-, hp, hadj⟩ | ⟨-, hp, hadj⟩ <;> simp <;> omega

/-- Where the judgements hold, an own adjacency is cut exactly while its end does not stand MATCHED. -/
theorem State.judgedFrom.own {s : State} {other : Nat → Prop} (h : s.judgedFrom other) {e : End} {x : Expectation}
    (hx : s.expects e = some x) : x.adjacency ∈ s.ru.cutMap ↔ s.ru.standing e ≠ .matched := by
  obtain ⟨-, hmap, -⟩ := h
  have hfaces : s.facesAdjacency e x.adjacency := ⟨x, hx, rfl⟩
  rw [hmap]
  constructor
  · rintro (⟨e', hfaces', hst⟩ | ⟨hnone, -⟩)
    · cases e <;> cases e'
      · exact hst
      · exact absurd hfaces' (State.facesAdjacency_a_ne_b hfaces)
      · exact absurd hfaces (State.facesAdjacency_a_ne_b hfaces')
      · exact hst
    · exact absurd hfaces (hnone e)
  · exact fun hst => .inl ⟨e, hfaces, hst⟩

/-- A cut map is an increasing list of adjacencies from 1 to N-1. -/
def CutsInRange (n : Nat) (cut : List Nat) : Prop := cut.Pairwise (· < ·) ∧ ∀ k ∈ cut, 1 ≤ k ∧ k < n

theorem CutMapSound.congr {s t : State} (h : CutMapSound s) (hcut : t.ru.cutMap = s.ru.cutMap)
    (hrs : t.ru.active.records = s.ru.active.records) (hid : t.ownId = s.ownId) (hst : ∀ e, t.ru.standing e = s.ru.standing e) :
    CutMapSound t := by
  obtain ⟨hsorted, hrange, hown⟩ := h
  refine ⟨by rwa [hcut], by rwa [hcut, hrs], fun e x hx => ?_⟩
  rw [hcut, hst]
  exact hown e x (State.expects_congr hid hrs e ▸ hx)

/-- The computation of R65 makes the cut map sound, from a sound one or from none. -/
theorem State.recompute_cutMapSound {s : State} (b : Bool) (hrs : RecordsSound s.ru.active.records)
    (h : CutsInRange s.ru.active.records.length (if b then [] else s.ru.cutMap)) : CutMapSound (s.recompute b) := by
  have hjudged := s.recompute_judgedFrom b
  obtain ⟨hsorted, hrange⟩ := h
  refine ⟨?_, fun k hk => ?_, fun e x hx => hjudged.own hx⟩
  · rw [State.recompute_cutMap]
    exact pairwise_cutAlign (pairwise_cutAlign hsorted)
  · have hlen : (s.recompute b).ru.active.records = s.ru.active.records := by simp
    rw [hlen]
    obtain ⟨-, hmap, -⟩ := hjudged
    rcases (hmap k).1 hk with ⟨⟨e, ⟨x, hx, rfl⟩, -⟩⟩ | ⟨-, hb, hk⟩
    · obtain ⟨r, hr, hx⟩ := State.expects_eq_some (State.expects_congr (State.ownId_congr (by simp)) hlen e ▸ hx)
      exact hrs.adjacency_range (mem_of_recordOf hr) hx
    · exact hrange k (by rwa [hb])

theorem CutsInRange.nil (n : Nat) : CutsInRange n [] := ⟨.nil, nofun⟩

/-! ## Reports of other cars (R133) -/

theorem CutsInRange.applyReport {n own : Nat} {x : Option Expectation} {report : EndReport} {cut : List Nat} (h : CutsInRange n cut)
    (hx : ∀ y, x = some y → 1 ≤ y.adjacency ∧ y.adjacency < n) : CutsInRange n (applyReport own x report cut) := by
  obtain ⟨hsorted, hrange⟩ := h
  cases x with
  | none => exact ⟨hsorted, hrange⟩
  | some y =>
    simp only [Machine.applyReport]
    split
    · exact ⟨hsorted, hrange⟩
    · split
      · exact ⟨pairwise_cutRemove hsorted, fun k hk => hrange k ((mem_cutRemove ..).1 hk).1⟩
      · exact ⟨pairwise_cutEnter hsorted, fun k hk => ((mem_cutEnter ..).1 hk).elim (fun he => he ▸ hx y rfl) (hrange k)⟩

/-- A report changes no own adjacency. -/
theorem mem_applyReport_of_own {own k : Nat} (h : isOwnAdjacency own k = true) (x : Option Expectation) (report : EndReport)
    (cut : List Nat) : k ∈ applyReport own x report cut ↔ k ∈ cut := by
  cases x with
  | none => rfl
  | some y =>
    simp only [applyReport]
    split
    · rfl
    · rename_i hy
      have hne : k ≠ y.adjacency := fun he => hy (he ▸ h)
      split
      · simp [mem_cutRemove, hne]
      · simp [mem_cutEnter, hne]

/-- A NOTICE changes the cut map within its range, and no own adjacency (R132, R133). -/
theorem State.interpreted_sound {s : State} (f : Frame) (hrs : RecordsSound s.ru.active.records)
    (h : CutsInRange s.ru.active.records.length s.ru.cutMap) :
    CutsInRange s.ru.active.records.length (s.interpreted f)
      ∧ ∀ k, isOwnAdjacency s.ownPos k = true → (k ∈ s.interpreted f ↔ k ∈ s.ru.cutMap) := by
  have hsame : CutsInRange s.ru.active.records.length s.ru.cutMap
      ∧ ∀ k, isOwnAdjacency s.ownPos k = true → (k ∈ s.ru.cutMap ↔ k ∈ s.ru.cutMap) := ⟨h, fun _ _ => Iff.rfl⟩
  unfold State.interpreted
  split
  · exact hsame
  · split
    · exact hsame
    · split
      · exact hsame
      · rename_i r hr _
        have hx (e : End) (y : Expectation) := hrs.adjacency_range (mem_of_recordOf hr) (e := e) (x := y)
        refine ⟨(h.applyReport (hx .a)).applyReport (hx .b), fun k hk => ?_⟩
        rw [mem_applyReport_of_own hk, mem_applyReport_of_own hk]

/-! ## The cut map over a step -/

/-- Sound rosters with a sound cut map. -/
def State.CutSound (s : State) : Prop := RostersSound s ∧ CutMapSound s

namespace State.CutSound

variable {s t : State}

/-- What leaves roster unit and identity. -/
theorem keep (h : s.CutSound) (hrosters : RostersSound t) (hru : t.ru = s.ru)
    (hcu : t.cu.loaded = s.cu.loaded ∧ t.cu.identity = s.cu.identity) : t.CutSound := by
  have hown : t.ownId = s.ownId := by simp only [State.ownId, CommandUnit.ownIdentity, hcu]
  exact ⟨hrosters, h.2.congr (by rw [hru]) (by rw [hru]) hown (by simp [hru])⟩

theorem same (h : s.CutSound) (hru : t.ru = s.ru) (hcu : t.cu.loaded = s.cu.loaded ∧ t.cu.identity = s.cu.identity)
    (hsu : t.su = s.su) : t.CutSound :=
  h.keep (h.1.congr_eq hcu (by rw [hru]) (by rw [hru]) (by rw [hru]) hsu) hru hcu

theorem cutsInRange (h : s.CutSound) : CutsInRange s.ru.active.records.length s.ru.cutMap := ⟨h.2.1, h.2.2.1⟩

theorem linkChange (h : s.CutSound) : CutMapSound s.linkChange :=
  (State.recompute_cutMapSound false h.1.active_records h.cutsInRange).congr (by simp) (by simp) (State.ownId_congr (by simp))
    (by simp)

/-- A cut map rebuilt from own standing alone (R69). -/
theorem rebuilt (hrosters : RostersSound t) (hj : t.judgedFrom (fun _ => False)) (hsorted : t.ru.cutMap.Pairwise (· < ·)) :
    t.CutSound := by
  refine ⟨hrosters, hsorted, fun k hk => ?_, fun e x hx => hj.own hx⟩
  obtain ⟨-, hmap, -⟩ := hj
  rcases (hmap k).1 hk with ⟨e, ⟨x, hx, rfl⟩, -⟩ | ⟨-, hno⟩
  · obtain ⟨r, hr, hx⟩ := State.expects_eq_some hx
    exact hrosters.active_records.adjacency_range (mem_of_recordOf hr) hx
  · exact hno.elim

theorem rebuilt_sorted (u : State) : (u.recompute true).ru.cutMap.Pairwise (· < ·) := by
  rw [State.recompute_cutMap]
  exact pairwise_cutAlign (pairwise_cutAlign .nil)

theorem linkEvent {e : End} (h : s.CutSound) (hrosters : RostersSound t) (he : s.LinkEvent e t) : t.CutSound := by
  cases he with
  | still c _ _ _ => exact h.keep hrosters (by simp) (by simp)
  | dark _ _ => exact h.keep hrosters (by simp) (by simp)
  | joins c _ _ =>
    have hset : (s.setClm e c).CutSound := h.same (by simp) (by simp) (by simp)
    exact ⟨hrosters, hset.linkChange⟩
  | loses c cause cand _ _ =>
    obtain ⟨u, hu, hru, -, hcu, hsu, -⟩ := (s.setClm e c).lose_eq e cause cand
    have hlost : (u.linkLossPurge (End.toPort e)).CutSound :=
      h.same (by simp [hru]) (by simp [hcu]) (by simp [hsu])
    exact ⟨hrosters, hu ▸ hlost.linkChange⟩

theorem enterDormant (h : s.CutSound) : s.enterDormant.CutSound :=
  rebuilt h.1.enterDormant s.enterDormant_judgedFrom (rebuilt_sorted _)

theorem wake (h : s.CutSound) (hd : s.power = .dormant) : s.wake.CutSound := by
  refine rebuilt (stateClosed_rosters.wake s hd h.1) s.wake_judgedFrom ?_
  unfold State.wake
  simpa using rebuilt_sorted _

theorem changeover (h : s.CutSound) {b : StagingBody} {r : ConfirmedRecord} (hb : s.su.staging = .confirmed b r) :
    ((((s.swapRosters b r).recompute true).reevaluate.purgeIfLeft s.ru .a).purgeIfLeft s.ru .b).CutSound :=
  rebuilt (stateClosed_rosters.changeover s b r hb h.1) (s.changeover_judgedFrom b r)
    (by simpa using rebuilt_sorted (s.swapRosters b r))

theorem completed (h : s.CutSound) (p : Port) : (s.completed p).CutSound := by
  have hu (q : Eqm) : ({ s with eqm := q } : State).CutSound := h
  simp only [State.completed]
  split
  · exact h
  · split
    · split
      · exact (hu _).enterDormant
      · exact hu _
    · exact hu _
    · exact hu _

theorem cmdSleep (h : s.CutSound) (r : Request) : (s.cmdSleep r).CutSound := by
  have hoffered : (({ s with cu := { s.cu with sleepPending := true } } : State).offer .c .c0 (s.sleepEntry r true)).CutSound :=
    h.same (by simp) (by simp) (by simp)
  simp only [State.cmdSleep]
  split
  · exact h.same (by simp) (by simp [State.refuse, State.countRefusal]) (by simp)
  · split
    · exact h.same (by simp) (by simp) (by simp)
    · split
      · exact hoffered
      · exact hoffered.enterDormant

/-- Without an identity there is no roster, so nothing is cut. -/
theorem identity (h : s.CutSound) (w : Word) (hl : s.cu.loaded = false) :
    ((({ s with cu := { s.cu with identity := w, loaded := true } } : State).settleIfReady .a).settleIfReady .b).CutSound := by
  obtain ⟨hrosters, hsorted, hrange, -⟩ := h
  obtain ⟨hnil, -, -⟩ := hrosters.1 hl
  refine ⟨hrosters.identity w hl, by simpa using hsorted, by simpa using hrange, fun e x hx => ?_⟩
  obtain ⟨r, hr, -⟩ := State.expects_eq_some hx
  simp [hnil, ownRecord, recordOf] at hr

theorem of_powerOn (hru : s.ru = .powerOn) (hsu : s.su = .powerOn) : s.CutSound := by
  refine ⟨.of_powerOn hru hsu, by rw [hru]; exact .nil, by rw [hru]; nofun, fun e x hx => ?_⟩
  obtain ⟨r, hr, -⟩ := State.expects_eq_some hx
  rw [hru] at hr
  cases hr

theorem interpret (h : s.CutSound) (f : Frame) : (s.interpret f).CutSound := by
  obtain ⟨⟨hsorted, hrange⟩, hown⟩ := s.interpreted_sound f h.1.active_records h.cutsInRange
  refine ⟨stateClosed_rosters.interpret s f h.1, ?_⟩
  unfold State.interpret
  split
  · exact h.2
  · refine ⟨hsorted, hrange, fun e x hx => ?_⟩
    have hx : s.expects e = some x := hx
    have hst := h.2.2.2 e x hx
    rw [← hown _ (State.expects_isOwnAdjacency hx)] at hst
    cases e <;> exact hst

theorem stateClosed : StateClosed State.CutSound where
  books s l n x t h := h
  offer s p c e _ h := h.same (by simp) (by simp) (by simp)
  arbitrate s p h := h.same (by simp) (by simp) (by simp)
  tick s h := ⟨stateClosed_rosters.tick s h.1, h.2.congr rfl rfl rfl fun e => by cases e <;> rfl⟩
  wakeInput s v h := h
  presenceAsserted s e hp h :=
    linkEvent (h.same (t := s.setPresence e true) (by simp) (by simp) (by simp))
      (stateClosed_rosters.presenceAsserted s e hp h.1) .presenceAsserted
  presenceNegated s e hp h :=
    linkEvent (h.same (t := s.setPresence e false) (by simp) (by simp) (by simp))
      (stateClosed_rosters.presenceNegated s e hp h.1) .presenceNegated
  capture s x _ h := h
  wake s hd h := h.wake hd
  settleExpired s e hd h := h.linkEvent (stateClosed_rosters.settleExpired s e hd h.1) .settleExpired
  greetExpired s e hd h := h.linkEvent (stateClosed_rosters.greetExpired s e hd h.1) .greetExpired
  fadeExpired s e hd h := h.linkEvent (stateClosed_rosters.fadeExpired s e hd h.1) .fadeExpired
  rouseExpired s e hd h := h.linkEvent (stateClosed_rosters.rouseExpired s e hd h.1) .rouseExpired
  validGreet s e g h := h.linkEvent (stateClosed_rosters.validGreet s e g h.1) (.validGreet g)
  completed s p h := h.completed p
  cmdSleep s r h := h.cmdSleep r
  restarted s _ := of_powerOn (by simp) (by simp)
  poweredOn s _ := of_powerOn rfl rfl
  identity s w hl h := h.identity w hl
  report s h := h
  hold s x h := h
  rule s i l x _ _ h := h
  policy s q c h := h
  timing s x v _ _ h := h.same (by simp) (by simp) (by simp)
  emptied s h := ⟨stateClosed_rosters.emptied s h.1, h.2⟩
  opened s m w hl h := ⟨h.1.opened hl m w, h.2⟩
  loaded s b l n w hl hb hn hload h := ⟨h.1.loaded hl hb hn hload, h.2⟩
  confirming s b w t hl hb hc h := ⟨h.1.confirming hl hb hc, h.2⟩
  folded s h := h.keep h.1.folded (by simp) (by simp)
  confirmed s b t w l hj hb h := ⟨h.1.confirmed hj hb, h.2⟩
  graceEnded s h := ⟨stateClosed_rosters.graceEnded s h.1, h.2.congr rfl rfl rfl fun e => by cases e <;> rfl⟩
  changeover s b r hb h := h.changeover hb
  interpret s f h := h.interpret f

end State.CutSound

/-- Settles O59: what judges anew gives the judgements, and nothing else touches what they read. -/
theorem stepKeepsJudgements : Obligations.StepKeepsJudgements := fun _ _ hstep =>
  ⟨fun hj hg => State.JudgedAndGuarded.stateClosed.step (fun _ _ h => h) ⟨hj, hg⟩ hstep,
    fun hr hc => (State.CutSound.stateClosed.step (fun _ _ h => h) ⟨hr, hc⟩ hstep).2⟩

end Sys2Proof.Machine
end

section
/-! The wake flag, the pending sleep and the quiet of a DORMANT part over a step (R46, R48 to R50, R54, R131, R154). -/

namespace Sys2Proof.Machine

/-! ## The wake flag (R54) -/

/-- Flag and capture are set together and cleared together. -/
theorem stateClosed_wakeLatched : StateClosed WakeLatched where
  books _ _ _ _ _ h := h
  offer s p c e _ h := by simpa [WakeLatched] using h
  arbitrate s p h := by simpa [WakeLatched] using h
  tick _ h := h
  wakeInput _ _ h := h
  presenceAsserted s e _ h := by simpa [WakeLatched] using h
  presenceNegated s e _ h := by simpa [WakeLatched] using h
  capture _ _ hx _ := hx
  wake s _ h := by simpa [WakeLatched] using h
  settleExpired s e _ h := by simpa [WakeLatched] using h
  greetExpired s e _ h := by simpa [WakeLatched] using h
  fadeExpired s e _ h := by simpa [WakeLatched] using h
  rouseExpired s e _ h := by simpa [WakeLatched] using h
  validGreet s e g h := by simpa [WakeLatched] using h
  completed s p h := by
    simp only [State.completed]
    split
    · exact h
    · split
      · split
        · simpa [WakeLatched] using h
        · exact h
      · exact h
      · exact h
  cmdSleep s r h := by
    simp only [State.cmdSleep]
    split
    · simpa [WakeLatched] using h
    · split
      · simpa [WakeLatched] using h
      · split <;> simpa [WakeLatched] using h
  restarted s h := by simpa [WakeLatched] using h
  poweredOn _ _ := rfl
  identity s w _ h := by simpa [WakeLatched] using h
  report _ h := h
  hold _ _ h := h
  rule _ _ _ _ _ _ h := h
  policy _ _ _ h := h
  timing s x v _ _ h := by simpa [WakeLatched] using h
  emptied _ h := h
  opened _ _ _ _ h := h
  loaded _ _ _ _ _ _ _ _ _ h := h
  confirming _ _ _ _ _ _ _ h := h
  folded s h := by simpa [WakeLatched] using h
  confirmed _ _ _ _ _ _ _ h := h
  graceEnded _ h := h
  changeover s b r _ h := by simpa [WakeLatched] using h
  interpret s f h := by simpa [WakeLatched] using h

/-! ## The sleep response (R48, R154) -/

/-- The copies with the sleep-response flag. -/
def flagged (l : List Entry) : List Entry := l.filter (fun e => e.sleepResponse)

theorem flagged_cons (x : Entry) (l : List Entry) : flagged (x :: l) = if x.sleepResponse then x :: flagged l else flagged l :=
  List.filter_cons

theorem flagged_append (l m : List Entry) : flagged (l ++ m) = flagged l ++ flagged m := List.filter_append ..

/-- The queue manager holds `n` flagged copies, in C0 of port C or sent there, and none elsewhere. -/
def Eqm.SleepMarks (q : Eqm) (n : Nat) : Prop :=
  (flagged (q.queue .c .c0)).length + (q.port .c).sendsSleep.toNat = n
    ∧ (∀ p c, ∀ x ∈ q.queue p c, x.sleepResponse = true → p = .c ∧ c = .c0 ∧ x.key = none)
    ∧ (q.port .a).sendsSleep = false ∧ (q.port .b).sendsSleep = false

theorem sleepCarried_iff (s : State) : SleepCarried s ↔ s.eqm.SleepMarks s.cu.sleepPending.toNat := Iff.rfl

/-- A newer copy in the place of one with its key changes no flagged copy, for those have no key. -/
theorem flagged_replaceHolder {k : CyclicKey} {e : Entry} {l : List Entry} (he : e.sleepResponse = false)
    (hl : ∀ x ∈ l, x.sleepResponse = true → x.key = none) : flagged (replaceHolder k e l) = flagged l := by
  induction l with
  | nil => rfl
  | cons x l ih =>
    obtain ⟨hx, hl⟩ := List.forall_mem_cons.1 hl
    simp only [replaceHolder]
    split
    · rename_i hk
      have hflag : x.sleepResponse = false := by
        refine Classical.byContradiction fun hn => ?_
        simp [(hasKey_iff k x).1 hk] at hx
        exact hn hx
      simp [flagged, he, hflag]
    · rw [flagged_cons, flagged_cons, ih hl]

theorem flagged_removeHolder {k : CyclicKey} {l : List Entry} (hl : ∀ x ∈ l, x.sleepResponse = true → x.key = none) :
    flagged (removeHolder k l) = flagged l := by
  induction l with
  | nil => rfl
  | cons x l ih =>
    obtain ⟨hx, hl⟩ := List.forall_mem_cons.1 hl
    simp only [removeHolder]
    split
    · rename_i hk
      have hflag : x.sleepResponse = false := by
        refine Classical.byContradiction fun hn => ?_
        simp [(hasKey_iff k x).1 hk] at hx
        exact hn hx
      simp [flagged, hflag]
    · rw [flagged_cons, flagged_cons, ih hl]

namespace Eqm.SleepMarks

variable {q r : Eqm} {n : Nat}

theorem congr (h : q.SleepMarks n) (hq : ∀ p c, r.queue p c = q.queue p c)
    (ht : ∀ p, (r.port p).sendsSleep = (q.port p).sendsSleep) : r.SleepMarks n := by
  simpa only [SleepMarks, hq, ht] using h

theorem withFreeCells (h : q.SleepMarks n) (m : Nat) : SleepMarks { q with freeCells := m } n :=
  h.congr (by simp) (by simp)

theorem enterOvertaken (h : q.SleepMarks n) (k : CyclicKey) (p : Port) : (q.enterOvertaken k p).SleepMarks n :=
  h.congr (by simp) (by simp)

theorem sendsSleep_setQueue (q : Eqm) (p p' : Port) (c : Cls) (l : List Entry) :
    ((q.setQueue p c l).port p').sendsSleep = (q.port p').sendsSleep := by
  simp only [PortQueues.sendsSleep, Eqm.setQueue_tx]

/-- A queue changed in copies without the flag alone. -/
theorem setQueue (h : q.SleepMarks n) (p : Port) (c : Cls) {l : List Entry} (hl : flagged l = flagged (q.queue p c)) :
    (q.setQueue p c l).SleepMarks n := by
  obtain ⟨hcount, hplace, ha, hb⟩ := h
  refine ⟨?_, fun p' c' x hx hflag => ?_, ?_, ?_⟩
  · rw [sendsSleep_setQueue, Eqm.queue_setQueue]
    split
    · rename_i hpc
      rw [hl, ← hpc.1, ← hpc.2]
      exact hcount
    · exact hcount
  · rw [Eqm.queue_setQueue] at hx
    split at hx
    · rename_i hpc
      have hmem : x ∈ flagged (q.queue p c) := hl ▸ List.mem_filter.2 ⟨hx, hflag⟩
      rw [hpc.1, hpc.2]
      exact hplace p c x (List.mem_filter.1 hmem).1 hflag
    · exact hplace p' c' x hx hflag
  · rwa [sendsSleep_setQueue]
  · rwa [sendsSleep_setQueue]

/-- The copies of a queue that is not C0 of port C bear no flag. -/
theorem flagged_eq_nil (h : q.SleepMarks n) {p : Port} {c : Cls} (hpc : ¬ (p = .c ∧ c = .c0)) : flagged (q.queue p c) = [] := by
  obtain ⟨-, hplace, -⟩ := h
  refine List.filter_eq_nil_iff.2 fun x hx hflag => hpc ?_
  obtain ⟨hp, hc, -⟩ := hplace p c x hx hflag
  exact ⟨hp, hc⟩

theorem flagged_append_one {l : List Entry} {e : Entry} (he : e.sleepResponse = false) : flagged (l ++ [e]) = flagged l := by
  simp [flagged, he]

theorem admission (h : q.SleepMarks n) {p : Port} {c : Cls} {e : Entry} (he : e.sleepResponse = false) (ha : q.Admission p c e r) :
    r.SleepMarks n := by
  have hkey (c : Cls) : ∀ x ∈ q.queue p c, x.sleepResponse = true → x.key = none := fun x hx hflag => (h.2.1 p c x hx hflag).2.2
  cases ha with
  | refused => exact h
  | inPlace k old m hk hold => exact ((h.setQueue p c (flagged_replaceHolder he (hkey c))).withFreeCells m).enterOvertaken k p
  | across k oc old m hk hold hne hlen =>
    have hout := h.setQueue p oc (flagged_removeHolder (k := k) (hkey oc))
    refine ((hout.setQueue p c ?_).withFreeCells m).enterOvertaken k p
    rw [flagged_append_one he, Eqm.queue_setQueue_of_ne q p (Ne.symm hne)]
  | tail m hfree hlen hslot => exact (h.setQueue p c (flagged_append_one he)).withFreeCells m

/-- A coupler port holds no flagged copy, queued or sent. -/
theorem purgeQueues (h : q.SleepMarks n) (e : End) (x : Reason) (cs : List Cls) :
    (q.purgeQueues (End.toPort e) x cs).1.SleepMarks n := by
  induction cs generalizing q with
  | nil => exact h
  | cons c cs ih =>
    have hport : ¬ (End.toPort e = .c ∧ c = .c0) := by cases e <;> simp [End.toPort]
    exact ih ((h.setQueue (l := []) _ c (h.flagged_eq_nil hport).symm).withFreeCells _)

theorem setTx (h : q.SleepMarks n) (p : Port) (t : Option Tx)
    (ht : ({ q.port p with tx := t } : PortQueues).sendsSleep = (q.port p).sendsSleep) :
    (q.setPort p { q.port p with tx := t }).SleepMarks n := by
  refine h.congr (by simp) fun p' => ?_
  rw [Eqm.port_setPort]
  split
  · rename_i hp
    rw [hp, ht]
  · rfl

theorem sendsSleep_none (x : PortQueues) : ({ x with tx := none } : PortQueues).sendsSleep = false := rfl

theorem abortLost (h : q.SleepMarks n) (e : End) : (q.abortLost (End.toPort e)).1.SleepMarks n := by
  have hsends : (q.port (End.toPort e)).sendsSleep = false := by
    obtain ⟨-, -, ha, hb⟩ := h
    cases e
    · exact ha
    · exact hb
  unfold Eqm.abortLost
  split
  · exact (h.setTx _ none (by rw [sendsSleep_none, hsends])).withFreeCells _
  · exact h

theorem abandonLinkControl (h : q.SleepMarks n) (p : Port) : (q.abandonLinkControl p).SleepMarks n := by
  unfold Eqm.abandonLinkControl
  split
  · rename_i ht
    exact h.setTx _ none (by simp [PortQueues.sendsSleep, ht])
  · rename_i ht
    exact h.setTx _ none (by simp [PortQueues.sendsSleep, ht])
  · exact h

theorem toCls_ne_c0 (c : DataClass) : c.toCls ≠ .c0 := by cases c <;> decide

/-- The copies of a data class bear no flag. -/
theorem unflagged {p : Port} {c : DataClass} {l m : List Entry} {e : Entry} (h : (q.setQueue p c.toCls (l ++ e :: m)).SleepMarks n) :
    flagged l = [] ∧ e.sleepResponse = false ∧ flagged m = [] := by
  have hnil := h.flagged_eq_nil (p := p) (c := c.toCls) (fun hc => toCls_ne_c0 c hc.2)
  rw [Eqm.queue_setQueue_self, flagged_append, flagged_cons] at hnil
  obtain ⟨hl, hm⟩ := List.append_eq_nil_iff.1 hnil
  split at hm
  · cases hm
  · exact ⟨hl, by simpa using ‹¬ e.sleepResponse = true›, hm⟩

/-- A queue of a data class with a copy kept or taken out. -/
theorem replaceData {p : Port} {c : DataClass} {l m l' : List Entry} {e : Entry} (h : (q.setQueue p c.toCls (l ++ e :: m)).SleepMarks n)
    (hl : flagged l' = []) : (q.setQueue p c.toCls l').SleepMarks n := by
  obtain ⟨hfl, he, hfm⟩ := h.unflagged
  have hset := h.setQueue p c.toCls (l := l') (by
    rw [Eqm.queue_setQueue_self, hl, flagged_append, flagged_cons, he, hfl, hfm]
    rfl)
  rwa [Eqm.setQueue_setQueue] at hset

theorem walkClosed (n : Nat) : WalkClosed (SleepMarks · n) where
  reframe q p c l m e f h := by
    obtain ⟨hl, he, hm⟩ := h.unflagged
    exact h.replaceData (by simp [flagged_append, flagged_cons, hl, hm, he])
  drop q p c l m e n h := by
    obtain ⟨hl, -, hm⟩ := h.unflagged
    exact (h.replaceData (by rw [flagged_append, hl, hm]; rfl)).withFreeCells n
  note q k p h := h.enterOvertaken k p
  move q p p' c l m e f hp hr h := by
    obtain ⟨hl, he, hm⟩ := h.unflagged
    have hout : (q.setQueue p c.toCls (l ++ m)).SleepMarks n := h.replaceData (by rw [flagged_append, hl, hm]; rfl)
    refine hout.setQueue p' c.toCls ?_
    rw [flagged_append_one (e := { e with frame := f }) he, Eqm.queue_setQueue, if_neg fun hpc => hp hpc.1]

/-- The port that starts a transmission sends what it starts, the others what they sent. -/
theorem sendsSleep_send (q : Eqm) (p p' : Port) (t : Tx) :
    ((q.send p t).port p').sendsSleep = if p' = p then ({ q.port p with tx := some t } : PortQueues).sendsSleep else (q.port p').sendsSleep := by
  rw [Eqm.send, Eqm.port_setPort]
  split <;> rfl

theorem sendsSleep_queued (x : PortQueues) (c : Cls) (e : Entry) (b : List Byte) :
    ({ x with tx := some { item := .queued c e, bytes := b } } : PortQueues).sendsSleep = e.sleepResponse := rfl

/-- What a transmission takes from its queue it bears on the line. -/
theorem sendFront (h : q.SleepMarks n) {p : Port} {c : Cls} {e : Entry} {l : List Entry} (htx : (q.port p).tx = none)
    (hq : q.queue p c = e :: l) (b : List Byte) :
    ((q.setQueue p c l).send p { item := .queued c e, bytes := b }).SleepMarks n := by
  have hidle : (q.port p).sendsSleep = false := by simp [PortQueues.sendsSleep, htx]
  cases hflag : e.sleepResponse with
  | false =>
    have hset := h.setQueue p c (l := l) (by rw [hq, flagged_cons, hflag]; rfl)
    refine hset.setTx p _ ?_
    rw [sendsSleep_queued, hflag, sendsSleep_setQueue, hidle]
  | true =>
    obtain ⟨hcount, hplace, ha, hb⟩ := h
    obtain ⟨rfl, rfl, -⟩ := hplace p c e (by simp [hq]) hflag
    rw [hq, flagged_cons, if_pos hflag, hidle] at hcount
    refine ⟨?_, fun p' c' x hx hf => ?_, ?_, ?_⟩
    · rw [Eqm.queue_send, Eqm.queue_setQueue_self, sendsSleep_send, if_pos rfl, sendsSleep_queued, hflag]
      simpa using hcount
    · rw [Eqm.queue_send, Eqm.queue_setQueue] at hx
      split at hx
      · rename_i hpc
        obtain ⟨rfl, rfl⟩ := hpc
        exact hplace .c .c0 x (by rw [hq]; exact List.mem_cons_of_mem _ hx) hf
      · exact hplace p' c' x hx hf
    · rwa [sendsSleep_send, if_neg (by decide), sendsSleep_setQueue]
    · rwa [sendsSleep_send, if_neg (by decide), sendsSleep_setQueue]

/-- A GREET or ROUSE bears no flag. -/
theorem sendLinkControl (h : q.SleepMarks n) {p : Port} {t : Tx} (htx : (q.port p).tx = none)
    (ht : t.item = .greet ∨ t.item = .rouse) : (q.send p t).SleepMarks n := by
  refine h.setTx p _ ?_
  obtain ⟨item, b⟩ := t
  rcases ht with rfl | rfl <;> simp [PortQueues.sendsSleep, htx]

theorem powerOn : SleepMarks .powerOn 0 := by
  refine ⟨rfl, fun p c x hx => ?_, rfl, rfl⟩
  have hnil : Eqm.powerOn.queue p c = [] := State.reset_queue p c
  simp [hnil] at hx

theorem emptied (q : Eqm) : q.emptied.SleepMarks 0 := by
  refine ⟨by rw [Eqm.emptied_queue]; rfl, fun p c x hx => ?_, rfl, rfl⟩
  simp [Eqm.emptied_queue] at hx

end Eqm.SleepMarks

/-! ## Admission of a control frame (R155) -/

/-- A copy without a key, of a kind that is no data kind, is refused for its link, its queue or the pool, or goes to the tail. -/
theorem Eqm.admitCopy_control (q : Eqm) (j m : Bool) (p : Port) {e : Entry} (hk : e.key = none) (hd : e.frame.kind.isData = false) :
    q.admitCopy j m p .c0 e =
      if j = false then (q, some .linkLost)
      else if 8 ≤ (q.queue p .c0).length then (q, some .queueFull)
      else if q.freeCells < e.cells then (q, some .poolExhausted)
      else ({ q.setQueue p .c0 (q.queue p .c0 ++ [e]) with freeCells := q.freeCells - e.cells }, none) := by
  have hholder : q.holderFor p e = none := by simp [Eqm.holderFor, hk]
  unfold Eqm.admitCopy Eqm.admitUp
  cases j <;> simp [hholder, hd, hk, Cls.limit, Cls.reserve]

theorem State.offer_eqm (s : State) (p : Port) (c : Cls) (e : Entry) :
    (s.offer p c e).eqm = (s.eqm.admitCopy (s.portJoined p) (s.portMatched p) p c e).1 := by
  unfold State.offer
  split <;> rename_i h <;> rw [h]
  rfl

namespace SleepCarried

variable {s t : State}

theorem congr (h : SleepCarried s) (he : t.eqm = s.eqm) (hc : t.cu.sleepPending = s.cu.sleepPending) : SleepCarried t := by
  rw [sleepCarried_iff] at h ⊢
  rwa [he, hc]

/-- The queue manager alone changes, in copies without the flag. -/
theorem marks (_ : SleepCarried s) (he : t.eqm.SleepMarks s.cu.sleepPending.toNat) (hc : t.cu.sleepPending = s.cu.sleepPending) :
    SleepCarried t := by
  rwa [sleepCarried_iff, hc]

theorem offer (h : SleepCarried s) (p : Port) (c : Cls) {e : Entry} (he : e.sleepResponse = false) : SleepCarried (s.offer p c e) := by
  refine h.marks ?_ (by simp)
  rw [State.offer_eqm]
  exact Eqm.SleepMarks.admission h he (s.eqm.admitCopy_admission _ _ p c e)

theorem arbitrate (h : SleepCarried s) (p : Port) : SleepCarried (s.arbitrate p) := by
  unfold State.arbitrate
  split
  · exact h
  · rename_i htx
    have hidle : (s.eqm.port p).tx = none := by simpa using htx
    split
    · exact h
    · rename_i x hx
      refine h.marks ?_ (by simp)
      cases x with
      | rouse e => simpa [State.begin] using Eqm.SleepMarks.sendLinkControl h hidle (.inr rfl)
      | greet e => simpa [State.begin] using Eqm.SleepMarks.sendLinkControl h hidle (.inl rfl)
      | front c e =>
        have hq := s.pick_front p c e hx
        cases hl : s.eqm.queue p c with
        | nil => simp [hl] at hq
        | cons y l =>
          rw [hl] at hq
          cases hq
          simpa [State.begin, hl] using Eqm.SleepMarks.sendFront h hidle hl _

theorem outputsKept : OutputsKept SleepCarried where
  books _ _ _ _ _ h := h
  offer _ p c _ he h := h.offer p c he.2
  arbitrate _ p h := h.arbitrate p

theorem purgeIfLeft (h : SleepCarried s) (u : RosterUnit) (e : End) : SleepCarried (s.purgeIfLeft u e) := by
  unfold State.purgeIfLeft
  split
  · refine h.marks ?_ (by simp)
    simpa [State.standingLeavePurge] using Eqm.SleepMarks.purgeQueues h e _ _
  · exact h

theorem linkLossPurge (h : SleepCarried s) (e : End) : SleepCarried (s.linkLossPurge (End.toPort e)) := by
  refine h.marks ?_ (by simp)
  simpa [State.linkLossPurge] using Eqm.SleepMarks.purgeQueues (Eqm.SleepMarks.abortLost h e) e _ _

theorem linkChange (h : SleepCarried s) : SleepCarried s.linkChange :=
  outputsKept.handOverNotice _ _ _ (((h.congr (t := s.recompute false) (by simp) (by simp)).purgeIfLeft _ _).purgeIfLeft _ _)

theorem linkEvent {e : End} (h : SleepCarried s) (he : s.LinkEvent e t) : SleepCarried t := by
  cases he with
  | still c _ _ _ => exact h.congr (by simp) (by simp)
  | dark _ _ => exact h.marks (by simpa [State.enterDark] using Eqm.SleepMarks.abandonLinkControl h _) (by simp)
  | joins c _ _ => exact (h.congr (t := s.setClm e c) (by simp) (by simp)).linkChange
  | loses c cause cand _ _ =>
    obtain ⟨u, hu, -, -, hcu, -, heqm, -⟩ := (s.setClm e c).lose_eq e cause cand
    rw [hu]
    refine (linkLossPurge (h.marks ?_ (by simp [hcu])) e).linkChange
    rcases heqm with heqm | heqm
    · rw [heqm, State.setClm_eqm]
      exact h
    · simpa [heqm] using Eqm.SleepMarks.abandonLinkControl h _

theorem enterDormant (s : State) : SleepCarried s.enterDormant := by
  rw [sleepCarried_iff]
  simpa using Eqm.SleepMarks.emptied s.eqm

theorem completed (h : SleepCarried s) (p : Port) : SleepCarried (s.completed p) := by
  have hends (t : Tx) (ht : (s.eqm.port p).tx = some t) (hflag : ∀ c e, t.item = .queued c e → e.sleepResponse = false) (n : Nat) :
      Eqm.SleepMarks { s.eqm.setPort p { s.eqm.port p with tx := none } with freeCells := n } s.cu.sleepPending.toNat := by
    refine (Eqm.SleepMarks.setTx h p none ?_).withFreeCells n
    obtain ⟨item, b⟩ := t
    cases item with
    | queued c e => simpa [PortQueues.sendsSleep, ht] using hflag c e rfl
    | greet => simp [PortQueues.sendsSleep, ht]
    | rouse => simp [PortQueues.sendsSleep, ht]
  simp only [State.completed]
  split
  · exact h
  · rename_i t ht
    split
    · rename_i c e hitem
      split
      · exact enterDormant _
      · rename_i hflag
        refine hends t ht (fun c' e' he => ?_) _
        rw [hitem] at he
        cases he
        simpa using hflag
    · rename_i hitem
      exact hends t ht (by simp [hitem]) _
    · rename_i hitem
      exact hends t ht (by simp [hitem]) _

/-- The one response that carries a pending sleep (R48). -/
theorem sleepAnswered (h : SleepCarried s) (hp : s.cu.sleepPending = false) {r : Request}
    (ha : s.admits .c .c0 (s.sleepEntry r true) = true) :
    SleepCarried (({ s with cu := { s.cu with sleepPending := true } } : State).offer .c .c0 (s.sleepEntry r true)) := by
  have hsame : (({ s with cu := { s.cu with sleepPending := true } } : State).offer .c .c0 (s.sleepEntry r true)).eqm
      = (s.eqm.admitCopy true true .c .c0 (s.sleepEntry r true)).1 := State.offer_eqm _ _ _ _
  have hcu : (({ s with cu := { s.cu with sleepPending := true } } : State).offer .c .c0 (s.sleepEntry r true)).cu.sleepPending = true := by
    simp
  have hnone : (s.eqm.admitCopy true true .c .c0 (s.sleepEntry r true)).2 = none := by
    simpa [State.admits, State.portJoined, State.portMatched] using ha
  rw [sleepCarried_iff, hsame, hcu]
  rw [sleepCarried_iff, hp] at h
  rw [Eqm.admitCopy_control _ _ _ _ rfl rfl, if_neg (by decide)] at hnone ⊢
  split at hnone
  · cases hnone
  · split at hnone
    · cases hnone
    · rename_i hlen hfree
      rw [if_neg hlen, if_neg hfree]
      refine Eqm.SleepMarks.withFreeCells ?_ _
      obtain ⟨hcount, hplace, ha, hb⟩ := h
      refine ⟨?_, fun p c x hx hflag => ?_, ?_, ?_⟩
      · rw [Eqm.queue_setQueue_self, Eqm.SleepMarks.sendsSleep_setQueue, flagged_append, List.length_append]
        simp only [Bool.toNat_false, Nat.add_eq_zero_iff] at hcount
        rw [hcount.1, hcount.2]
        rfl
      · rw [Eqm.queue_setQueue] at hx
        split at hx
        · rename_i hpc
          rcases List.mem_append.1 hx with hx | hx
          · exact ⟨hpc.1, hpc.2, (hplace _ _ x hx hflag).2.2⟩
          · rw [List.mem_singleton.1 hx]
            exact ⟨hpc.1, hpc.2, rfl⟩
        · exact hplace p c x hx hflag
      · rwa [Eqm.SleepMarks.sendsSleep_setQueue]
      · rwa [Eqm.SleepMarks.sendsSleep_setQueue]

theorem cmdSleep (h : SleepCarried s) (r : Request) : SleepCarried (s.cmdSleep r) := by
  simp only [State.cmdSleep]
  split
  · exact outputsKept.refuse s _ _ _ _ h
  · split
    · exact h.offer .c .c0 rfl
    · rename_i hp
      split
      · rename_i ha
        exact h.sleepAnswered (by simpa using hp) ha
      · exact enterDormant _

theorem stateClosed : StateClosed SleepCarried where
  toOutputsKept := outputsKept
  tick _ h := h
  wakeInput _ _ h := h
  presenceAsserted s e _ h := (h.congr (t := s.setPresence e true) (by simp) (by simp)).linkEvent .presenceAsserted
  presenceNegated s e _ h := (h.congr (t := s.setPresence e false) (by simp) (by simp)).linkEvent .presenceNegated
  capture _ _ _ h := h
  wake s _ h := by
    refine h.marks ?_ (by simp)
    simpa [State.wake, State.enterDark] using Eqm.SleepMarks.abandonLinkControl (Eqm.SleepMarks.abandonLinkControl h _) _
  settleExpired s e _ h := h.linkEvent .settleExpired
  greetExpired s e _ h := h.linkEvent .greetExpired
  fadeExpired s e _ h := h.linkEvent .fadeExpired
  rouseExpired s e _ h := h.linkEvent .rouseExpired
  validGreet s e g h := h.linkEvent (.validGreet g)
  completed s p h := h.completed p
  cmdSleep s r h := h.cmdSleep r
  restarted s _ := by
    rw [sleepCarried_iff]
    simpa [CommandUnit.powerOn] using Eqm.SleepMarks.powerOn
  poweredOn s _ := Eqm.SleepMarks.powerOn
  identity s w _ h := h.congr (by simp) (by simp)
  report s h := h.marks (Eqm.SleepMarks.congr h (fun p c => by cases p <;> rfl) (fun p => by cases p <;> rfl)) rfl
  hold s x h := h.marks (Eqm.SleepMarks.congr h (fun p c => by cases p <;> rfl) (fun p => by cases p <;> rfl)) rfl
  rule _ _ _ _ _ _ h := h
  policy _ _ _ h := h
  timing s x v _ _ h := h.congr (by simp) (by simp)
  emptied _ h := h
  opened _ _ _ _ h := h
  loaded _ _ _ _ _ _ _ _ _ h := h
  confirming _ _ _ _ _ _ _ h := h
  folded s h := h.congr (by simp) (by simp)
  confirmed _ _ _ _ _ _ _ h := h
  graceEnded _ h := h
  changeover s b r _ h := by
    refine SleepCarried.purgeIfLeft (SleepCarried.purgeIfLeft ?_ _ _) _ _
    have hswapped : SleepCarried ((s.swapRosters b r).recompute true) := h.congr (by simp) (by simp)
    exact hswapped.marks ((Eqm.SleepMarks.walkClosed _).evaluateQueues _ _ _ _ _ hswapped) (by simp)
  interpret s f h := h.congr (by simp) (by simp)

end SleepCarried

/-! ## A part that is awake -/

/-- ACTIVE, with no link in LISTEN (R46). -/
def State.Awake (s : State) : Prop := s.power = .active ∧ ∀ e, (s.clm e).link ≠ .listen

/-- DORMANT and quiet (R46, R49, R50, R131). -/
def State.Quiet (s : State) : Prop :=
  s.power = .dormant ∧ (∀ e, (s.clm e).link = .listen) ∧ s.eqm.freeCells = 768 ∧ (∀ p, s.eqm.port p = PortQueues.empty)
    ∧ s.su = StagingUnit.powerOn ∧ s.ru.prior = none ∧ s.ru.grace = none ∧ s.ng.timer = none ∧ s.cu.sleepPending = false

theorem dormantQuiet_iff (s : State) : DormantQuiet s ↔ s.Awake ∨ s.Quiet := by
  constructor
  · rintro ⟨hquiet, hlisten⟩
    cases hp : s.power with
    | active => exact .inl ⟨hp, fun e hl => by simp [hp] at hlisten; exact hlisten e hl⟩
    | dormant => exact .inr ⟨hp, hquiet hp⟩
  · rintro (⟨hp, hl⟩ | ⟨hp, hquiet⟩)
    · exact ⟨fun hd => by simp [hp] at hd, fun e he => absurd he (hl e)⟩
    · exact ⟨fun _ => hquiet, fun _ _ => hp⟩

theorem State.darkened_link_ne_listen (s : State) (e : End) (last : LastChange) : (s.darkened e last).link ≠ .listen := by
  unfold State.darkened
  split <;> simp [Clm.rest]

namespace State.Awake

variable {s t : State}

theorem congr (h : s.Awake) (hp : t.power = s.power) (hclm : ∀ e, (t.clm e).link = (s.clm e).link) : t.Awake :=
  ⟨hp.trans h.1, fun e => by rw [hclm]; exact h.2 e⟩

theorem linkEvent {e : End} (h : s.Awake) (he : s.LinkEvent e t) : t.Awake := by
  obtain ⟨hp, hl⟩ := h
  cases he with
  | still c _ _ hc =>
    refine ⟨by simpa using hp, fun e' => ?_⟩
    rw [State.clm_setClm]
    split
    · exact fun hn => hl e (hc.1 hn)
    · exact hl e'
  | dark _ _ =>
    refine ⟨by simpa using hp, fun e' => ?_⟩
    rw [State.enterDark_clm]
    split
    · exact s.darkened_link_ne_listen e _
    · exact hl e'
  | joins c _ hc =>
    refine ⟨by simpa using hp, fun e' => ?_⟩
    have hclm : (s.setClm e c).linkChange.clm e' = (s.setClm e c).clm e' := by simp
    rw [hclm, State.clm_setClm]
    split
    · simp [hc]
    · exact hl e'
  | loses c cause cand _ _ =>
    refine ⟨by simpa using hp, fun e' => ?_⟩
    rw [State.lose_clm]
    split
    · unfold State.lostClm
      split
      · exact State.darkened_link_ne_listen _ _ _
      · simp [Clm.greeting]
    · rename_i he
      rw [State.clm_setClm_of_ne _ _ he]
      exact hl e'

theorem wake (s : State) : s.wake.Awake := by
  refine ⟨by simp, fun e => ?_⟩
  rw [State.wake_clm]
  exact s.darkened_link_ne_listen e _

theorem restarted (s : State) : s.restarted.Awake := by
  refine ⟨by simp, fun e => ?_⟩
  obtain ⟨hclm, -⟩ := ClmClosed.restarted_inputs s e
  rw [hclm]
  unfold Clm.darkened
  split <;> simp [Clm.rest]

theorem poweredOn (s : State) : s.poweredOn.Awake :=
  ⟨rfl, fun e => by cases e <;> exact fun h => by cases h⟩

theorem arbitrate (h : s.Awake) (p : Port) : (s.arbitrate p).Awake :=
  h.congr (by simp) fun e => by
    obtain ⟨slot, hslot⟩ := s.arbitrate_clm p e
    rw [hslot]

theorem of_fields (h : s.Awake) (hp : t.power = s.power) (ha : t.clmA.link = s.clmA.link) (hb : t.clmB.link = s.clmB.link) :
    t.Awake :=
  h.congr hp fun e => by
    cases e
    · exact ha
    · exact hb

theorem eventsKept : EventsKept State.Awake where
  books s l n x t h := h.of_fields rfl rfl rfl
  offer s p c e _ h := h.congr (by simp) (by simp)
  arbitrate s p h := h.arbitrate p
  tick s h := h.of_fields rfl rfl rfl
  wakeInput s v h := h.of_fields rfl rfl rfl
  presenceAsserted s e _ h := linkEvent (s := s.setPresence e true) (h.congr (by simp) (by simp)) .presenceAsserted
  presenceNegated s e _ h := linkEvent (s := s.setPresence e false) (h.congr (by simp) (by simp)) .presenceNegated
  capture s x _ h := h.of_fields rfl rfl rfl
  wake s _ _ := wake s
  settleExpired s e _ h := h.linkEvent .settleExpired
  greetExpired s e _ h := h.linkEvent .greetExpired
  fadeExpired s e _ h := h.linkEvent .fadeExpired
  rouseExpired s e _ h := h.linkEvent .rouseExpired
  validGreet s e g h := h.linkEvent (.validGreet g)
  restarted s _ := restarted s
  poweredOn s _ := poweredOn s
  identity s w _ h :=
    ((h.of_fields (t := { s with cu := { s.cu with identity := w, loaded := true } }) rfl rfl rfl).linkEvent
      (.settleIfReady (e := .a))).linkEvent (.settleIfReady (e := .b))
  report s h := h.of_fields rfl rfl rfl
  hold s x h := h.of_fields rfl rfl rfl
  rule s i l x _ _ h := h.of_fields rfl rfl rfl
  policy s q c h := h.of_fields rfl rfl rfl
  timing s x v _ _ h := h.of_fields (by simp) (by simp only [State.setTiming]; split <;> rfl)
    (by simp only [State.setTiming]; split <;> rfl)
  emptied s h := h.of_fields rfl rfl rfl
  opened s m w _ h := h.of_fields rfl rfl rfl
  loaded s b l n w _ _ _ _ h := h.of_fields rfl rfl rfl
  confirming s b w t _ _ _ h := h.of_fields rfl rfl rfl
  folded s h := h.congr (by simp) (by simp)
  confirmed s b t w l _ _ h := h.of_fields rfl rfl rfl
  graceEnded s h := h.of_fields rfl rfl rfl
  changeover s b r _ h := h.congr (by simp) (by simp)
  interpret s f h := h.congr (by simp) (by simp)

end State.Awake

/-! ## A part that sleeps -/

namespace State.Quiet

variable {s t : State}

theorem enterDormant (s : State) : s.enterDormant.Quiet := by
  have hclm (e : End) : (s.enterDormant.clm e).link = .listen := by
    rw [State.enterDormant_clm]
    rfl
  have heqm : s.enterDormant.eqm = s.eqm.emptied := by simp
  refine ⟨by simp, hclm, by rw [heqm]; rfl, fun p => ?_, by simp, by simp, by simp, by simp, by simp⟩
  rw [heqm]
  cases p <;> rfl

theorem congr (h : s.Quiet) (hp : t.power = s.power) (hclm : ∀ e, (t.clm e).link = (s.clm e).link) (he : t.eqm = s.eqm)
    (hsu : t.su = s.su) (hru : t.ru.prior = s.ru.prior ∧ t.ru.grace = s.ru.grace) (hng : t.ng.timer = s.ng.timer)
    (hcu : t.cu.sleepPending = s.cu.sleepPending) : t.Quiet := by
  simpa only [Quiet, hp, hclm, he, hsu, hru, hng, hcu] using h

/-- A link in LISTEN has no event but of its timers. -/
theorem linkEvent {e : End} (h : s.Quiet) (he : s.LinkEvent e t) : t.Quiet := by
  have hlisten := h.2.1 e
  cases he with
  | still c _ _ hc =>
    refine h.congr (by simp) (fun e' => ?_) (by simp) (by simp) (by simp) (by simp) (by simp)
    rw [State.clm_setClm]
    split
    · rename_i he
      rw [he, hlisten]
      exact hc.2 hlisten
    · rfl
  | dark _ hl => exact absurd hlisten hl
  | joins c hl _ => simp [hlisten] at hl
  | loses c cause cand hj _ => simp [hlisten, LinkState.isJoined] at hj

theorem served (h : s.Quiet) : s.served := fun p _ => by simp [State.pick, h.1]

theorem rouseFilter (h : s.Quiet) (e : End) (b : List Byte) : DormantQuiet (s.rouseFilter e b) := by
  unfold State.rouseFilter
  split
  · exact (dormantQuiet_iff _).2 (.inl (.wake _))
  · exact (dormantQuiet_iff _).2 (.inr h)

theorem request (h : s.Quiet) (c : Command) (r : Request) : s.request c r = s := by simp [State.request, h.1]

/-- A command on a part that sleeps wakes it, resets it, or leaves it asleep. -/
theorem exec {i : Instr} (h : s.Quiet) (e : Machine.exec i s = .next t) : DormantQuiet t := by
  have hstays {u : State} (hu : u.Quiet) : DormantQuiet u := (dormantQuiet_iff u).2 (.inr hu)
  have hsame : DormantQuiet s := hstays h
  have hbegun : s.begun = s := State.begun_of_served h.served
  obtain ⟨hp, hl, hfree, hport, hsu, hprior, hgrace, htimer, hsleep⟩ := id h
  cases i <;> cases e
  case transmissionStart p => rwa [State.arbitrate_of_served fun _ => h.served p (by simp [hport, PortQueues.empty])]
  case powerOnReset => exact (dormantQuiet_iff _).2 (.inl (.poweredOn s))
  all_goals
    dsimp only
    rw [hbegun]
  case presenceAssertion e =>
    split
    · exact hsame
    · exact hstays ((h.congr (t := s.setPresence e true) (by simp) (by simp) (by simp) (by simp) (by simp) (by simp) (by simp)).linkEvent
        .presenceAsserted)
  case presenceNegation e =>
    exact StateLeads.guarded s hsame fun _ => hstays
      ((h.congr (t := s.setPresence e false) (by simp) (by simp) (by simp) (by simp) (by simp) (by simp) (by simp)).linkEvent
        .presenceNegated)
  case wakeInAssertion =>
    split
    · exact hsame
    · exact (dormantQuiet_iff _).2 (.inl (.wake _))
  case wakeInNegation => exact hstays (h.congr rfl (fun e => by cases e <;> rfl) rfl rfl ⟨rfl, rfl⟩ rfl rfl)
  case arrivalOnCouplerPort e b =>
    rw [hp]
    exact h.rouseFilter e b
  case arrivalOnPortC b => rwa [hp]
  case dormantArrival e b =>
    rw [hp]
    exact h.rouseFilter e b
  case settleExpiry e => exact StateLeads.expiry s hsame fun _ => hstays (h.linkEvent .settleExpired)
  case greetExpiry e => exact StateLeads.expiry s hsame fun _ => hstays (h.linkEvent .greetExpired)
  case answerLimitReached e => exact StateLeads.guarded s hsame fun _ => hstays (h.linkEvent .greetExpired)
  case silenceLimitReached e => exact StateLeads.guarded s hsame fun _ => hstays (h.linkEvent .greetExpired)
  case fadeExpiry e => exact StateLeads.expiry s hsame fun _ => hstays (h.linkEvent .fadeExpired)
  case rouseExpiry e => exact StateLeads.expiry s hsame fun _ => hstays (h.linkEvent .rouseExpired)
  case rouseBurstReached e => exact StateLeads.guarded s hsame fun _ => hstays (h.linkEvent .rouseExpired)
  case noticeTimerExpiry => rwa [htimer]
  case transmissionCompletion p => simpa [hport, PortQueues.empty] using hsame
  case blockFoldCompletion => simpa [State.blockFoldDone, hsu, StagingUnit.powerOn] using hsame
  case finishCompletion => simpa [State.finishDone, hsu, StagingUnit.powerOn] using hsame
  case stagingTimerExpiry => simpa [hsu, StagingUnit.powerOn] using hsame
  case graceTimerExpiry => simpa [hgrace] using hsame
  case unknownCommand c r => simpa [hp] using hsame
  all_goals rwa [h.request]

end State.Quiet

/-- From ACTIVE the part sleeps at a completion or at a SLEEP alone, and what it does then is the last of its step. -/
theorem stateLeads_quiet : StateLeads State.Awake DormantQuiet where
  toEventsKept := State.Awake.eventsKept
  final s h := (dormantQuiet_iff s).2 (.inl h)
  completed s p h := by
    have hu (q : Eqm) : DormantQuiet { s with eqm := q } := (dormantQuiet_iff _).2 (.inl (h.of_fields rfl rfl rfl))
    simp only [State.completed]
    split
    · exact (dormantQuiet_iff s).2 (.inl h)
    · split
      · split
        · exact (dormantQuiet_iff _).2 (.inr (.enterDormant _))
        · exact hu _
      · exact hu _
      · exact hu _
  cmdSleep s r h := by
    simp only [State.cmdSleep]
    split
    · exact (dormantQuiet_iff _).2 (.inl (State.Awake.eventsKept.refuse s _ _ _ _ h))
    · split
      · exact (dormantQuiet_iff _).2 (.inl (h.congr (by simp) (by simp)))
      · split
        · exact (dormantQuiet_iff _).2 (.inl (h.of_fields (by simp) (by simp) (by simp)))
        · exact (dormantQuiet_iff _).2 (.inr (.enterDormant _))

theorem exec_keeps_dormantQuiet {i : Instr} {s t : State} (h : DormantQuiet s) (e : exec i s = .next t) : DormantQuiet t := by
  rcases (dormantQuiet_iff s).1 h with h | h
  · exact stateLeads_quiet.exec h e
  · exact h.exec e

/-- Settles O58: a part is awake or quiet, its flags are set and cleared together, and one response carries a pending sleep. -/
theorem stepKeepsDormancyAndWakeMarks : Obligations.StepKeepsDormancyAndWakeMarks := by
  intro s t hstep
  refine ⟨fun h => ?_, fun h => stateClosed_wakeLatched.step (fun _ _ h => h) h hstep,
    fun h => SleepCarried.stateClosed.step (fun _ _ h => h) h hstep⟩
  have hfields (l : List Instr) (n : Nat) : DormantQuiet { s with pending := l, free := n } := by
    obtain ⟨hquiet, hlisten⟩ := h
    exact ⟨fun hp => ⟨fun e => by have := (hquiet hp).1 e; cases e <;> exact this, (hquiet hp).2⟩,
      fun e => by have := hlisten e; cases e <;> exact this⟩
  rcases step_cases hstep with ⟨c, rest, -, he⟩ | ⟨-, -, rfl⟩ | ⟨-, c, -, n, he⟩
  · exact exec_keeps_dormantQuiet (hfields rest s.free) he
  · obtain ⟨hquiet, hlisten⟩ := h
    refine ⟨fun hp => ?_, fun e => by have := hlisten e; cases e <;> exact this⟩
    obtain ⟨hl, hfree, hport, hsu, hprior, hgrace, htimer, hsleep⟩ := hquiet hp
    refine ⟨fun e => by have := hl e; cases e <;> exact this, hfree, hport, ?_, hprior, ?_, ?_, hsleep⟩
    · simp [State.tick, hsu, StagingUnit.powerOn, tickTimer]
    · simp [State.tick, hgrace, tickTimer]
    · simp [State.tick, htimer, tickTimer]
  · exact exec_keeps_dormantQuiet (hfields s.pending n) he

end Sys2Proof.Machine
end

section
/-! Translation, path choice and re-evaluation (R73, R76, R116 to R121): the tests of the model in the spec's terms, and what a
re-evaluation leaves in the queues. -/

namespace Sys2Proof.Machine

/-! ## Translation (R73) -/

theorem activePosition_eq_some {rs : List Record} {w : Word} {p : Nat} :
    activePosition rs w = some p ↔ ∃ r, recordOf rs w = some r ∧ r.position = p := Option.map_eq_some_iff

theorem translateDestination_eq_some {prior active : List Record} {d d' : Byte} :
    translateDestination prior active d = some d' ↔
      (d = 0 ∧ d' = 0)
        ∨ ∃ x y, d ≠ 0 ∧ d.toNat ≤ prior.length ∧ recordAtPosition prior d.toNat = some x ∧ recordOf active x.identity = some y
            ∧ d' = natByte y.position := by
  unfold translateDestination
  by_cases hd : d = 0
  · rw [if_pos hd, Option.some.injEq]
    constructor
    · rintro rfl
      exact .inl ⟨hd, rfl⟩
    · rintro (⟨-, rfl⟩ | ⟨x, y, hne, -⟩)
      · rfl
      · exact absurd hd hne
  · rw [if_neg hd]
    constructor
    · intro h
      split at h
      · cases h
      · rename_i hlen
        cases hx : recordAtPosition prior d.toNat with
        | none =>
          rw [hx] at h
          cases h
        | some x =>
          rw [hx] at h
          obtain ⟨p, hp, rfl⟩ := Option.map_eq_some_iff.1 h
          obtain ⟨y, hy, rfl⟩ := activePosition_eq_some.1 hp
          exact .inr ⟨x, y, hd, Nat.not_lt.1 hlen, rfl, hy, rfl⟩
    · rintro (⟨hzero, -⟩ | ⟨x, y, -, hlen, hx, hy, rfl⟩)
      · exact absurd hzero hd
      · rw [if_neg (Nat.not_lt.2 hlen), hx]
        simp only [activePosition, hy, Option.map_some]

/-- The model's translation is that of R73. -/
theorem translate_eq_some {prior : List Record} {a : ActiveRoster} {f f' : Frame} :
    translate prior a f = some f' ↔ Translates prior a.records a.generation f f' := by
  unfold translate Translates
  constructor
  · intro h
    split at h
    · rename_i d p hd hp
      obtain ⟨own, hown, rfl⟩ := activePosition_eq_some.1 hp
      cases h
      exact ⟨own, d, hown, translateDestination_eq_some.1 hd, rfl⟩
    · cases h
  · rintro ⟨own, d, hown, hd, rfl⟩
    rw [translateDestination_eq_some.2 hd, activePosition_eq_some.2 ⟨own, hown, rfl⟩]

theorem translate_eq_none {prior : List Record} {a : ActiveRoster} {f : Frame} :
    translate prior a f = none ↔ ¬ ∃ f', Translates prior a.records a.generation f f' := by
  simp only [← translate_eq_some, Option.eq_none_iff_forall_ne_some, not_exists, ne_eq]

/-! ## Path choice (R76) -/

theorem State.portMatched_toPort (s : State) (e : End) : s.portMatched (End.toPort e) = true ↔ s.ru.standing e = .matched := by
  cases e <;> simp [State.portMatched, End.toPort, RosterUnit.standing]

/-- A port chosen and not refused. -/
theorem filtered_eq_some {o : Option Port} {bad : Port → Prop} [DecidablePred bad] {q : Port} :
    (match o with | none => none | some p => if bad p then none else some p) = some q ↔ o = some q ∧ ¬ bad q := by
  cases o with
  | none => simp
  | some p =>
    by_cases hp : bad p
    · simp only [hp, if_true, Option.some.injEq]
      constructor
      · nofun
      · rintro ⟨rfl, hn⟩
        exact absurd hp hn
    · simp only [hp, if_false, Option.some.injEq]
      constructor
      · rintro rfl
        exact ⟨rfl, hp⟩
      · exact fun h => h.1

/-- The model's choice of a port is that of R76. -/
theorem State.addressedPort_eq_some {s : State} {i : Ingress} {dst dev : Byte} {q : Port} :
    s.addressedPort i dst dev = some q ↔ s.chooses i dst dev q := by
  unfold State.addressedPort State.chooses ownRecord
  cases hown : recordOf s.ru.active.records s.ownId with
  | none => simp
  | some own =>
    have hmatched : s.portMatched .c = true := rfl
    dsimp only
    refine (filtered_eq_some (bad := fun p => i = .port p ∨ s.portMatched p = false)).trans ?_
    simp only [Option.some.injEq, exists_eq_left', not_or, Bool.not_eq_false]
    constructor
    · rintro ⟨hchosen, hi, hm⟩
      refine ⟨hi, ?_⟩
      split at hchosen
      · split at hchosen
        · cases hchosen
        · cases hchosen
          exact .inl ⟨by assumption, by assumption, rfl⟩
      · split at hchosen
        · cases hchosen
          exact .inr ⟨_, rfl, (s.portMatched_toPort _).1 hm, .inl ⟨by assumption, rfl⟩⟩
        · split at hchosen
          · cases hchosen
            exact .inr ⟨_, rfl, (s.portMatched_toPort _).1 hm, .inr ⟨by omega, by assumption, rfl⟩⟩
          · cases hchosen
    · rintro ⟨hi, ⟨hpos, hdev, rfl⟩ | ⟨e, rfl, hm, ⟨hlt, rfl⟩ | ⟨hlt, hle, rfl⟩⟩⟩
      · exact ⟨by rw [if_pos hpos, if_neg hdev], hi, hmatched⟩
      · exact ⟨by rw [if_neg (by omega), if_pos hlt], hi, (s.portMatched_toPort _).2 hm⟩
      · exact ⟨by rw [if_neg (by omega), if_neg (by omega), if_pos hle], hi, (s.portMatched_toPort _).2 hm⟩

theorem State.addressedPort_eq_none {s : State} {i : Ingress} {dst dev : Byte} :
    s.addressedPort i dst dev = none ↔ ∀ q, ¬ s.chooses i dst dev q := by
  simp only [← State.addressedPort_eq_some, Option.eq_none_iff_forall_ne_some, ne_eq]

theorem State.portMatched_of_chooses {s : State} {i : Ingress} {dst dev : Byte} {q : Port} (h : s.chooses i dst dev q) :
    s.portMatched q = true := by
  obtain ⟨own, -, -, ⟨-, -, rfl⟩ | ⟨e, rfl, hm, -⟩⟩ := h
  · rfl
  · exact (s.portMatched_toPort e).2 hm

/-! ## The treatment of one queued frame (R117 to R120) -/

theorem PortQueues.holder_eq_none_iff (x : PortQueues) (k : CyclicKey) :
    x.holder k = none ↔ ∀ c, ∀ e ∈ x.queue c, e.key ≠ some k := by
  constructor
  · intro h c e he hk
    have hnone := x.holder_none k h c
    rw [List.find?_eq_none] at hnone
    exact hnone e he ((hasKey_iff k e).2 hk)
  · intro h
    have hnone (c : Cls) : (x.queue c).find? (Entry.hasKey k) = none :=
      List.find?_eq_none.2 fun e he hk => h c e he ((hasKey_iff k e).1 hk)
    have h0 := hnone .c0
    have h1 := hnone .c1
    have h2 := hnone .c2
    have h3 := hnone .c3
    simp only [PortQueues.queue] at h0 h1 h2 h3
    simp only [PortQueues.holder, h0, h1, h2, h3]

theorem Eqm.keyHeld_eq_false_iff (q : Eqm) (p : Port) (e : Entry) : q.keyHeld p e = false ↔ ∀ k, e.key = some k → q.keyFree p k := by
  unfold Eqm.keyHeld Eqm.holderFor
  cases hk : e.key with
  | none => simp
  | some k =>
    have hfree : (q.port p).holder k = none ↔ q.keyFree p k := PortQueues.holder_eq_none_iff _ _
    simp only [Option.some.injEq, forall_eq', ← hfree]
    cases (q.port p).holder k <;> simp

namespace State

variable {s : State} {p : Port} {c : DataClass} {w : Walk} {x : Entry} {f : Frame}

theorem evaluate_of_keep (h : s.verdict p c x = .keep f) : s.evaluate p c w x = { w with kept := { x with frame := f } :: w.kept } := by
  simp only [evaluate, h]

theorem evaluate_of_drop {r : Reason} (h : s.verdict p c x = .drop r) :
    s.evaluate p c w x = { w with eqm := { w.eqm with freeCells := w.eqm.freeCells + x.cells }, lost := x.discard r :: w.lost } := by
  simp only [evaluate, h]

theorem evaluate_of_move {q : Port} (h : s.verdict p c x = .move q f) (hr : w.eqm.moveRefusal q c.toCls { x with frame := f } = none) :
    s.evaluate p c w x = { w with eqm := w.eqm.setQueue q c.toCls (w.eqm.queue q c.toCls ++ [{ x with frame := f }]) } := by
  simp only [evaluate, h, hr]

theorem evaluate_of_refused {q : Port} {r : Reason} (h : s.verdict p c x = .move q f)
    (hr : w.eqm.moveRefusal q c.toCls { x with frame := f } = some r) :
    s.evaluate p c w x =
      { w with eqm := { w.eqm with freeCells := w.eqm.freeCells + x.cells }.noteOvertaken r q { x with frame := f }
               lost := Entry.discard { x with frame := f } r :: w.lost } := by
  simp only [evaluate, h, hr]

theorem verdict_of_flush (h : s.cm.policy c = .flush) : s.verdict p c x = .drop .flushedAtEnact := by simp only [verdict, h]

theorem verdict_of_no_prior (h : s.cm.policy c = .reroute) (hp : s.ru.prior = none) : s.verdict p c x = .drop .stranded := by
  simp only [verdict, h, hp]

theorem verdict_of_stranded {pr : PriorRoster} (h : s.cm.policy c = .reroute) (hp : s.ru.prior = some pr)
    (ht : translate pr.records s.ru.active x.frame = none) : s.verdict p c x = .drop .stranded := by
  simp only [verdict, h, hp, ht]

theorem verdict_of_translated {pr : PriorRoster} (h : s.cm.policy c = .reroute) (hp : s.ru.prior = some pr)
    (ht : translate pr.records s.ru.active x.frame = some f) : s.verdict p c x = s.rerouted p x f := by
  simp only [verdict, h, hp, ht]

/-- A frame keeps its place or moves only in a class with policy REROUTE, and only where its new port takes data. -/
theorem verdict_served : (∀ f, s.verdict p c x = .keep f → s.cm.policy c = .reroute ∧ s.portMatched p = true)
    ∧ ∀ q f, s.verdict p c x = .move q f → s.cm.policy c = .reroute ∧ s.portMatched q = true := by
  unfold verdict
  split
  · exact ⟨nofun, nofun⟩
  · rename_i hpolicy
    split
    · exact ⟨nofun, nofun⟩
    · split
      · exact ⟨nofun, nofun⟩
      · unfold rerouted
        split
        · split
          · rename_i hm
            exact ⟨fun _ _ => ⟨hpolicy, hm⟩, nofun⟩
          · exact ⟨nofun, nofun⟩
        · split
          · rename_i hp
            exact ⟨fun _ _ => ⟨hpolicy, by rw [hp.1]; rfl⟩, nofun⟩
          · split
            · exact ⟨nofun, nofun⟩
            · rename_i q hq
              have hm := portMatched_of_chooses (addressedPort_eq_some.1 hq)
              split
              · rename_i hqp
                exact ⟨fun _ _ => ⟨hpolicy, hqp ▸ hm⟩, nofun⟩
              · exact ⟨nofun, fun _ _ h => by cases h; exact ⟨hpolicy, hm⟩⟩

end State

/-! ## What a re-evaluation leaves (R116) -/

/-- A queue that a re-evaluation empties: its class is flushed, or its port takes no data. -/
def State.Unservable (s : State) (p : Port) (c : DataClass) : Prop := s.cm.policy c = .flush ∨ s.portMatched p = false

theorem DataClass.toCls_injective : Function.Injective DataClass.toCls := by
  intro c d h
  cases c <;> cases d <;> simp_all [DataClass.toCls]

namespace State

variable {s : State} {p q : Port} {c d : DataClass}

/-- Nothing is kept in such a queue and nothing comes to it. -/
theorem evaluate_unservable (hu : s.Unservable q d) (w : Walk) (x : Entry) :
    (s.evaluate p c w x).eqm.queue q d.toCls = w.eqm.queue q d.toCls ∧ ((p, c) = (q, d) → (s.evaluate p c w x).kept = w.kept) := by
  have hserved := s.verdict_served (p := p) (c := c) (x := x)
  have hno (hq : s.cm.policy d = .reroute ∧ s.portMatched q = true) : False := by
    rcases hu with hu | hu <;> simp [hq] at hu
  cases hv : s.verdict p c x with
  | keep f =>
    rw [evaluate_of_keep hv]
    refine ⟨rfl, fun hpc => ?_⟩
    cases hpc
    exact (hno (hserved.1 f hv)).elim
  | drop r =>
    rw [evaluate_of_drop hv]
    exact ⟨by simp, fun _ => rfl⟩
  | move q' f =>
    cases hr : w.eqm.moveRefusal q' c.toCls { x with frame := f } with
    | some r =>
      rw [evaluate_of_refused hv hr]
      exact ⟨by simp, fun _ => rfl⟩
    | none =>
      rw [evaluate_of_move hv hr]
      refine ⟨?_, fun _ => rfl⟩
      rw [Eqm.queue_setQueue, if_neg]
      rintro ⟨rfl, hc⟩
      rw [DataClass.toCls_injective hc] at hno
      exact hno (hserved.2 _ f hv)

theorem evaluate_fold_unservable (hu : s.Unservable q d) (l : List Entry) (w : Walk) :
    (l.foldl (s.evaluate p c) w).eqm.queue q d.toCls = w.eqm.queue q d.toCls
      ∧ ((p, c) = (q, d) → (l.foldl (s.evaluate p c) w).kept = w.kept) := by
  induction l generalizing w with
  | nil => exact ⟨rfl, fun _ => rfl⟩
  | cons x l ih =>
    obtain ⟨hq, hk⟩ := evaluate_unservable (p := p) (c := c) hu w x
    obtain ⟨hq', hk'⟩ := ih (s.evaluate p c w x)
    exact ⟨hq'.trans hq, fun h => (hk' h).trans (hk h)⟩

theorem evaluateQueue_unservable (hu : s.Unservable q d) (n : Nat) (r : Eqm) (lost : List Discard) :
    (s.evaluateQueue p c n r lost).1.queue q d.toCls
      = if (p, c) = (q, d) then (r.queue q d.toCls).drop n else r.queue q d.toCls := by
  obtain ⟨hqueue, hkept⟩ := evaluate_fold_unservable (p := p) (c := c) hu ((r.queue p c.toCls).take n)
    { eqm := r.setQueue p c.toCls ((r.queue p c.toCls).drop n), kept := [], lost := lost }
  simp only [evaluateQueue, Eqm.queue_setQueue] at hqueue ⊢
  by_cases hpc : (p, c) = (q, d)
  · cases hpc
    simp [hkept rfl, hqueue]
  · have hne : ¬ (q = p ∧ d.toCls = c.toCls) := fun h => hpc (by rw [h.1, DataClass.toCls_injective h.2])
    simp only [hne, hpc, if_false] at hqueue ⊢
    exact hqueue

theorem evaluateQueues_unservable (hu : s.Unservable q d) (start : Eqm) (l : List (Port × DataClass)) (hl : l.Nodup) (r : Eqm)
    (lost : List Discard) (hr : r.queue q d.toCls = start.queue q d.toCls) :
    (s.evaluateQueues start l r lost).1.queue q d.toCls = if (q, d) ∈ l then [] else r.queue q d.toCls := by
  have hrest : ∀ (l : List (Port × DataClass)) (r : Eqm) (lost : List Discard), (q, d) ∉ l →
      (s.evaluateQueues start l r lost).1.queue q d.toCls = r.queue q d.toCls := by
    intro l
    induction l with
    | nil => exact fun _ _ _ => rfl
    | cons x l ih =>
      intro r lost hx
      obtain ⟨hne, hl⟩ := not_or.1 (mt List.mem_cons.2 hx)
      simp only [evaluateQueues]
      rw [ih _ _ hl, evaluateQueue_unservable hu, if_neg (Ne.symm hne)]
  induction l generalizing r lost with
  | nil => rfl
  | cons x l ih =>
    obtain ⟨hx, hl⟩ := List.nodup_cons.1 hl
    simp only [evaluateQueues]
    by_cases he : x = (q, d)
    · subst he
      rw [hrest _ _ _ hx, evaluateQueue_unservable hu, if_pos rfl, if_pos List.mem_cons_self, hr, List.drop_length]
    · rw [ih hl _ _ (by rw [evaluateQueue_unservable hu, if_neg he, hr]), evaluateQueue_unservable hu, if_neg he]
      simp [Ne.symm he]

/-- After the re-evaluation no frame of a flushed class is queued, and none of C1 to C3 on a port that takes no data. -/
theorem reevaluate_unservable (hu : s.Unservable q d) : s.reevaluate.eqm.queue q d.toCls = [] := by
  have h := evaluateQueues_unservable hu s.eqm reevaluationOrder (by decide) s.eqm [] rfl
  rw [if_pos (by cases q <;> cases d <;> decide)] at h
  exact h

/-- What a re-evaluation leaves of a queue manager: the C0 queues, the frames on the lines and the hold set. -/
def SparesControl (q r : Eqm) : Prop := (∀ p, r.queue p .c0 = q.queue p .c0 ∧ (r.port p).tx = (q.port p).tx) ∧ r.hold = q.hold

theorem sparesControl_setQueue (q r : Eqm) (p : Port) (c : DataClass) (l : List Entry) :
    SparesControl q (r.setQueue p c.toCls l) ↔ SparesControl q r := by
  have hqueue (p' : Port) : (r.setQueue p c.toCls l).queue p' .c0 = r.queue p' .c0 := by
    rw [Eqm.queue_setQueue, if_neg fun h => Eqm.SleepMarks.toCls_ne_c0 c h.2.symm]
  simp only [SparesControl, hqueue, Eqm.setQueue_tx, Eqm.setQueue_hold]

theorem walkClosed_sparesControl (q : Eqm) : WalkClosed (SparesControl q) where
  reframe r p c l m e f h := by rwa [sparesControl_setQueue] at h ⊢
  drop r p c l m e n h := by
    rw [sparesControl_setQueue] at h
    obtain ⟨hports, hhold⟩ := (sparesControl_setQueue q r p c (l ++ m)).2 h
    exact ⟨fun p' => by rw [Eqm.queue_withFreeCells, Eqm.port_withFreeCells]; exact hports p', hhold⟩
  note r k p h := by
    have hhold : (r.enterOvertaken k p).hold = r.hold := by
      unfold Eqm.enterOvertaken
      split
      · rfl
      · split <;> rfl
    simpa [SparesControl, hhold] using h
  move r p p' c l m e f _ _ h := by
    rw [sparesControl_setQueue] at h
    rwa [sparesControl_setQueue, sparesControl_setQueue]

theorem reevaluate_sparesControl (s : State) : SparesControl s.eqm s.reevaluate.eqm :=
  (walkClosed_sparesControl s.eqm).evaluateQueues s _ _ _ _ ⟨fun _ => ⟨rfl, rfl⟩, rfl⟩

end State

/-! ## O23 -/

namespace State

variable {s : State} {p : Port} {c : DataClass} {x : Entry} {f : Frame}

/-- The port of a translated frame (R119). -/
theorem rerouted_trainWide (h : f.dstPos = 0) : s.rerouted p x f = if s.portMatched p then .keep f else .drop .noPath := by
  rw [rerouted, if_pos h]

theorem rerouted_flagged (h : f.dstPos ≠ 0) (hp : p = .c ∧ x.localCopy = true) : s.rerouted p x f = .keep f := by
  rw [rerouted, if_neg h, if_pos hp]

theorem rerouted_noPath (h : f.dstPos ≠ 0) (hp : ¬ (p = .c ∧ x.localCopy = true))
    (hq : ∀ q, ¬ s.chooses x.ingress f.dstPos f.dstDev q) : s.rerouted p x f = .drop .noPath := by
  rw [rerouted, if_neg h, if_neg hp, addressedPort_eq_none.2 hq]

theorem rerouted_chosen {q : Port} (h : f.dstPos ≠ 0) (hp : ¬ (p = .c ∧ x.localCopy = true))
    (hq : s.chooses x.ingress f.dstPos f.dstDev q) : s.rerouted p x f = if q = p then .keep f else .move q f := by
  rw [rerouted, if_neg h, if_neg hp, addressedPort_eq_some.2 hq]

/-- The re-evaluation as a fold over the queues of R116. -/
theorem evaluateQueues_eq_foldl (s : State) (start : Eqm) (l : List (Port × DataClass)) (q : Eqm) (lost : List Discard) :
    s.evaluateQueues start l q lost
      = l.foldl (fun y z => s.evaluateQueue z.1 z.2 (start.queue z.1 z.2.toCls).length y.1 y.2) (q, lost) := by
  induction l generalizing q lost with
  | nil => rfl
  | cons x l ih => exact ih _ _

end State

/-- The limit of a queue of a data class, as R154 lists them. -/
theorem DataClass.limit_eq (c : DataClass) : c.toCls.limit = match c with | .c1 => 32 | .c2 => 32 | .c3 => 48 := by
  cases c <;> rfl

/-- The tests of R120, each where those before it pass. -/
theorem Eqm.moveRefusal_cases (q : Eqm) (p : Port) (c : Cls) (e : Entry) :
    (¬ (p = .c ∨ e.frame.hop ≠ 0) → q.moveRefusal p c e = some .hopExhausted)
    ∧ (p = .c ∨ e.frame.hop ≠ 0 →
        (∀ k, e.key = some k → ¬ q.keyFree p k → q.moveRefusal p c e = some .overtakenReroute)
        ∧ ((∀ k, e.key = some k → q.keyFree p k) →
            (c.limit ≤ (q.queue p c).length → q.moveRefusal p c e = some .queueFull)
            ∧ ((q.queue p c).length < c.limit →
                (e.key ≠ none → 64 ≤ (q.port p).slotsHeld → q.moveRefusal p c e = some .slotExhausted)
                ∧ (e.key = none ∨ (q.port p).slotsHeld < 64 → q.moveRefusal p c e = none)))) := by
  unfold Eqm.moveRefusal
  refine ⟨fun h => if_pos ((not_or.1 h).imp_right Classical.not_not.1), fun h => ?_⟩
  rw [if_neg fun hn => h.elim hn.1 (absurd hn.2)]
  refine ⟨fun k hk hn => if_pos ?_, fun hfree => ?_⟩
  · refine Classical.byContradiction fun hheld => ?_
    exact hn ((q.keyHeld_eq_false_iff p e).1 (by simpa using hheld) k hk)
  · rw [(q.keyHeld_eq_false_iff p e).2 hfree, if_neg (by decide)]
    refine ⟨fun h => if_pos h, fun h => ?_⟩
    rw [if_neg (by omega)]
    refine ⟨fun hk hs => if_pos ⟨Option.isSome_iff_ne_none.2 hk, hs⟩, fun h => if_neg ?_⟩
    rintro ⟨hk, hs⟩
    rcases h with h | h
    · simp [h] at hk
    · exact absurd hs (Nat.not_le.2 h)

/-- Settles O23: frame by frame the verdict of R117 to R119 and the tests of R120; then `State.reevaluate_unservable` for what is left
of C1 to C3, and `State.reevaluate_sparesControl` for the rest. -/
theorem reevaluationLeavesOnlyServableFrames : Obligations.ReevaluationLeavesOnlyServableFrames := by
  intro s
  refine ⟨?_, fun p c w x => ⟨fun h => ?_, fun h hp => ?_, fun pr h hp => ⟨fun hn => ?_, fun f hf => ?_⟩⟩, fun c hc p => ?_,
    fun e he c => ?_, (s.reevaluate_sparesControl).1, (s.reevaluate_sparesControl).2, rfl⟩
  · simp only [State.reevaluate, State.evaluateQueues_eq_foldl]
    rfl
  · exact State.evaluate_of_drop (State.verdict_of_flush h)
  · exact State.evaluate_of_drop (State.verdict_of_no_prior h hp)
  · exact State.evaluate_of_drop (State.verdict_of_stranded h hp (translate_eq_none.2 hn))
  · have hv := State.verdict_of_translated (p := p) h hp (translate_eq_some.2 hf)
    have hdiscard (r : Reason) : Entry.discard { x with frame := f } r = x.discard r := by
      obtain ⟨own, d, -, -, rfl⟩ := hf
      rfl
    refine ⟨fun h0 hm => ?_, fun h0 hm => ?_, fun hn hfl => ?_, fun hn hfl hq => ?_, fun hn hfl hq => ?_, fun q hn hfl hq hqp => ?_⟩
    · exact State.evaluate_of_keep (by rw [hv, State.rerouted_trainWide h0, hm]; rfl)
    · exact State.evaluate_of_drop (by rw [hv, State.rerouted_trainWide h0, hm]; rfl)
    · exact State.evaluate_of_keep (by rw [hv, State.rerouted_flagged hn hfl])
    · exact State.evaluate_of_drop (by rw [hv, State.rerouted_noPath hn hfl hq])
    · exact State.evaluate_of_keep (by rw [hv, State.rerouted_chosen hn hfl hq, if_pos rfl])
    · have hmove : s.verdict p c x = .move q f := by rw [hv, State.rerouted_chosen hn hfl hq, if_neg hqp]
      obtain ⟨hhop, hpass⟩ := w.eqm.moveRefusal_cases q c.toCls { x with frame := f }
      refine ⟨fun hno => ?_, fun k hops hk hheld => ?_, fun hops hfree hlen => ?_, fun hops hfree hlen hk hs => ?_,
        fun hops hfree hlen hs => ?_⟩
      · rw [State.evaluate_of_refused hmove (hhop hno), hdiscard]
        rfl
      · rw [State.evaluate_of_refused hmove ((hpass hops).1 k hk hheld), hdiscard]
        simp only [Eqm.noteOvertaken, hk]
        rfl
      · rw [State.evaluate_of_refused hmove (((hpass hops).2 hfree).1 (c.limit_eq ▸ hlen)), hdiscard]
        rfl
      · rw [State.evaluate_of_refused hmove ((((hpass hops).2 hfree).2 (c.limit_eq ▸ hlen)).1 hk hs), hdiscard]
        rfl
      · exact State.evaluate_of_move hmove ((((hpass hops).2 hfree).2 (c.limit_eq ▸ hlen)).2 hs)
  · exact State.reevaluate_unservable (.inl hc)
  · refine State.reevaluate_unservable (.inr ?_)
    rw [Bool.eq_false_iff]
    exact fun hm => he ((s.portMatched_toPort e).1 hm)

end Sys2Proof.Machine
end

section
/-! The queues of the coupler ports (R155, R162, R165, R166): what purges and admissions leave of them, and that every step keeps them
free of frames that their link or standing forbids. -/

namespace Sys2Proof.Machine

/-! ## What a purge leaves -/

/-- A port without queued frames that sends none. -/
def PortQueues.Clear (x : PortQueues) : Prop := x.entries = [] ∧ ∀ c e b, x.tx ≠ some ⟨.queued c e, b⟩

/-- A port without queued frames of C1 to C3. -/
def PortQueues.DataClear (x : PortQueues) : Prop := ∀ c, c ≠ .c0 → x.queue c = []

theorem PortQueues.entries_eq_nil_iff (x : PortQueues) : x.entries = [] ↔ ∀ c, x.queue c = [] := by
  simp only [PortQueues.entries, List.append_eq_nil_iff]
  constructor
  · rintro ⟨⟨⟨h0, h1⟩, h2⟩, h3⟩ c
    cases c
    · exact h0
    · exact h1
    · exact h2
    · exact h3
  · exact fun h => ⟨⟨⟨h .c0, h .c1⟩, h .c2⟩, h .c3⟩

theorem PortQueues.Clear.dataClear {x : PortQueues} (h : x.Clear) : x.DataClear := fun c _ => (x.entries_eq_nil_iff.1 h.1) c

/-- Queues purged one after another are empty; the others, the frame on the line and the other ports stay. -/
theorem Eqm.purgeQueues_port (q : Eqm) (p p' : Port) (r : Reason) (cs : List Cls) :
    (∀ c, (q.purgeQueues p r cs).1.queue p' c = if p' = p ∧ c ∈ cs then [] else q.queue p' c)
      ∧ ((q.purgeQueues p r cs).1.port p').tx = (q.port p').tx := by
  induction cs generalizing q with
  | nil => exact ⟨fun c => by simp [Eqm.purgeQueues], rfl⟩
  | cons d cs ih =>
    obtain ⟨hq, ht⟩ := ih (q.purgeQueue p d r).1
    have hone (c : Cls) : (q.purgeQueue p d r).1.queue p' c = if p' = p ∧ c = d then [] else q.queue p' c := by
      rw [Eqm.purgeQueue, Eqm.queue_withFreeCells, Eqm.queue_setQueue]
    refine ⟨fun c => ?_, ht.trans (by rw [Eqm.purgeQueue, Eqm.port_withFreeCells, Eqm.setQueue_tx])⟩
    simp only [Eqm.purgeQueues, hq, hone, List.mem_cons]
    grind

/-- An abort ends the transmission of a queued frame and changes nothing else of the ports (R165). -/
theorem Eqm.abortLost_tx (q : Eqm) (p p' : Port) :
    (p' ≠ p → ((q.abortLost p).1.port p').tx = (q.port p').tx) ∧ ∀ c e b, ((q.abortLost p).1.port p).tx ≠ some ⟨.queued c e, b⟩ := by
  unfold Eqm.abortLost
  split
  · refine ⟨fun hp => ?_, fun c e b => ?_⟩
    · rw [Eqm.port_withFreeCells, Eqm.port_setPort, if_neg hp]
    · rw [Eqm.port_withFreeCells, Eqm.port_setPort_self]
      simp
  · rename_i hno
    exact ⟨fun _ => rfl, fun c e b h => hno c e b h⟩

/-- An abandoned GREET or ROUSE leaves the port idle; a queued frame on the line stays (R27). -/
theorem Eqm.abandonLinkControl_tx (q : Eqm) (p p' : Port) :
    ((q.abandonLinkControl p).port p').tx = (q.port p').tx ∨ (p' = p ∧ ((q.abandonLinkControl p).port p').tx = none) := by
  unfold Eqm.abandonLinkControl
  split
  case h_3 => exact .inl rfl
  all_goals
    rw [Eqm.port_setPort]
    split
    · rename_i hp
      exact .inr ⟨hp, rfl⟩
    · exact .inl rfl

/-- The link-loss purge clears its port and leaves the others (R165). -/
theorem State.linkLossPurge_port (s : State) (p p' : Port) :
    (p' = p → ((s.linkLossPurge p).eqm.port p').Clear)
      ∧ (p' ≠ p → (∀ c, (s.linkLossPurge p).eqm.queue p' c = s.eqm.queue p' c)
          ∧ ((s.linkLossPurge p).eqm.port p').tx = (s.eqm.port p').tx) := by
  obtain ⟨hq, ht⟩ := (s.eqm.abortLost p).1.purgeQueues_port p p' .linkLost [.c0, .c1, .c2, .c3]
  obtain ⟨hother, hself⟩ := s.eqm.abortLost_tx p p'
  simp only [State.linkLossPurge, State.take_eqm]
  refine ⟨?_, fun hp => ⟨fun c => ?_, ht.trans (hother hp)⟩⟩
  · rintro rfl
    refine ⟨(PortQueues.entries_eq_nil_iff _).2 fun c => ?_, fun c e b => ?_⟩
    · exact (hq c).trans (if_pos ⟨rfl, by cases c <;> simp⟩)
    · rw [ht]
      exact hself c e b
  · rw [hq, if_neg (fun h => hp h.1), Eqm.queue_abortLost]

/-- The standing-leave purge takes C1 to C3 of the port of its end alone (R166). -/
theorem State.standingLeavePurge_port (s : State) (e : End) (p' : Port) :
    (∀ c, (s.standingLeavePurge e).eqm.queue p' c = if p' = End.toPort e ∧ c ≠ .c0 then [] else s.eqm.queue p' c)
      ∧ ((s.standingLeavePurge e).eqm.port p').tx = (s.eqm.port p').tx := by
  obtain ⟨hq, ht⟩ := s.eqm.purgeQueues_port (End.toPort e) p'
    (if (s.clm e).link.isJoined then (if s.ru.standing e = .foreign then .foreignLink else .noPath) else .linkLost) [.c1, .c2, .c3]
  refine ⟨fun c => (hq c).trans ?_, ht⟩
  cases c <;> simp

theorem End.toPort_injective : Function.Injective End.toPort := by
  intro e e' h
  cases e <;> cases e' <;> simp_all [End.toPort]

/-! ## The ports of a state -/

/-- A port at rest where its link is down, and without data frames where its end does not stand MATCHED. -/
def PortServed (joined matched : Prop) (x : PortQueues) : Prop := (¬ joined → x.Clear) ∧ (¬ matched → x.DataClear)

theorem couplerQueues_iff (s : State) :
    CouplerQueues s ↔ ∀ e, PortServed ((s.clm e).link.isJoined = true) (s.ru.standing e = .matched) (s.eqm.port (End.toPort e)) := by
  simp only [CouplerQueues, PortServed, PortQueues.Clear, PortQueues.DataClear, Bool.not_eq_true]
  rfl

/-- What takes frames from a port and puts none on the line keeps it served. -/
theorem PortServed.shrink {j m j' m' : Prop} {x y : PortQueues} (h : PortServed j m x) (hj : j → j') (hm : m → m')
    (hq : ∀ c, x.queue c = [] → y.queue c = []) (ht : y.tx = x.tx ∨ ∀ c e b, y.tx ≠ some ⟨.queued c e, b⟩) : PortServed j' m' y := by
  refine ⟨fun hn => ?_, fun hn c hc => hq c (h.2 (fun hm' => hn (hm hm')) c hc)⟩
  obtain ⟨hnil, htx⟩ := h.1 fun hj' => hn (hj hj')
  refine ⟨(PortQueues.entries_eq_nil_iff y).2 fun c => hq c ((PortQueues.entries_eq_nil_iff x).1 hnil c), ?_⟩
  rcases ht with ht | ht
  · rwa [ht]
  · exact ht

theorem PortServed.empty {j m : Prop} : PortServed j m .empty :=
  ⟨fun _ => ⟨rfl, by simp [PortQueues.empty]⟩, fun _ c _ => PortQueues.empty_queue c⟩

theorem PortServed.of_clear {j m : Prop} {x : PortQueues} (h : x.Clear) : PortServed j m x := ⟨fun _ => h, fun _ => h.dataClear⟩

/-- An admission changes its own port alone. -/
theorem Eqm.Admission.port_of_ne {q r : Eqm} {p p' : Port} {c : Cls} {e : Entry} (h : q.Admission p c e r) (hp : p' ≠ p) :
    r.port p' = q.port p' := by
  cases h <;> simp only [Eqm.enterOvertaken_port, Eqm.port_withFreeCells, Eqm.port_setQueue, hp, if_false]

/-- A copy without a key changes its own queue alone. -/
theorem Eqm.Admission.queue_of_ne {q r : Eqm} {p : Port} {c c' : Cls} {e : Entry} (h : q.Admission p c e r) (hk : e.key = none)
    (hc : c' ≠ c) : r.queue p c' = q.queue p c' := by
  cases h with
  | refused => rfl
  | inPlace k old n hk' hold => simp [hk] at hk'
  | across k oc old n hk' hold hne hlen => simp [hk] at hk'
  | tail n hfree hlen hslot => rw [Eqm.queue_withFreeCells, Eqm.queue_setQueue_of_ne q p hc]

theorem State.portJoined_toPort (s : State) (e : End) : s.portJoined (End.toPort e) = (s.clm e).link.isJoined := by cases e <;> rfl

/-- A copy offered to a coupler port is taken on a link that is up, and a data copy by a MATCHED end alone (R155). -/
theorem CouplerQueues.offer {s : State} (h : CouplerQueues s) (p : Port) (c : Cls) {x : Entry} (hx : p = .c ∨ x.Ordinary c) :
    CouplerQueues (s.offer p c x) := by
  rw [couplerQueues_iff] at h ⊢
  intro e
  have hport : PortServed ((s.clm e).link.isJoined = true) (s.ru.standing e = .matched) ((s.offer p c x).eqm.port (End.toPort e)) := by
    rw [State.offer_eqm]
    rcases s.eqm.admitCopy_cases (s.portJoined p) (s.portMatched p) p c x with hsame | ⟨hj, hm, ha⟩
    · rw [hsame]
      exact h e
    · by_cases hp : End.toPort e = p
      · subst hp
        rw [State.portJoined_toPort] at hj
        refine ⟨fun hn => absurd hj hn, fun hn c' hc' => ?_⟩
        have hcontrol : c = .c0 ∧ x.key = none := by
          rcases hx with hx | ⟨hc | hd, -⟩
          · cases e <;> cases hx
          · exact hc
          · exact absurd ((s.portMatched_toPort e).1 (hm hd)) hn
        have hq := ha.queue_of_ne hcontrol.2 (hcontrol.1 ▸ hc')
        exact hq.trans ((h e).2 hn c' hc')
      · rw [ha.port_of_ne hp]
        exact h e
  simpa using hport

/-- What leaves links, standings and the ports of the ends. -/
theorem CouplerQueues.congr {s t : State} (h : CouplerQueues s) (hclm : ∀ e, (t.clm e).link = (s.clm e).link)
    (hst : ∀ e, t.ru.standing e = s.ru.standing e) (hport : ∀ e, t.eqm.port (End.toPort e) = s.eqm.port (End.toPort e)) :
    CouplerQueues t := by
  rw [couplerQueues_iff] at h ⊢
  intro e
  rw [hclm, hst, hport]
  exact h e

/-- A transmission takes a frame from a port whose link is up, or a GREET or ROUSE. -/
theorem CouplerQueues.arbitrate {s : State} (h : CouplerQueues s) (p : Port) : CouplerQueues (s.arbitrate p) := by
  have hlink (e : End) : ((s.arbitrate p).clm e).link = (s.clm e).link := by
    obtain ⟨slot, hslot⟩ := s.arbitrate_clm p e
    rw [hslot]
  have hru (e : End) : (s.arbitrate p).ru.standing e = s.ru.standing e := by simp
  rw [couplerQueues_iff] at h ⊢
  intro e
  rw [hlink, hru]
  have he := h e
  revert he
  unfold State.arbitrate
  split
  · exact id
  · split
    · exact id
    · rename_i x hx
      intro he
      have hsent (q : Eqm) (t : Tx) : (q.send p t).port (End.toPort e)
          = if End.toPort e = p then { q.port p with tx := some t } else q.port (End.toPort e) := by
        rw [Eqm.send, Eqm.port_setPort]
      cases x with
      | rouse e' =>
        simp only [State.begin, State.setClm_eqm, hsent]
        split
        · rename_i hp
          rw [hp] at he
          exact he.shrink id id (fun c hc => by cases c <;> exact hc) (.inr (by simp))
        · exact he
      | greet e' =>
        simp only [State.begin, State.setClm_eqm, hsent]
        split
        · rename_i hp
          rw [hp] at he
          exact he.shrink id id (fun c hc => by cases c <;> exact hc) (.inr (by simp))
        · exact he
      | front c y =>
        have hfront := s.pick_front p c y hx
        simp only [State.begin, hsent, Eqm.port_setQueue]
        split
        · rename_i hp
          rw [hp] at he
          have hne : s.eqm.queue p c ≠ [] := by
            intro hnil
            simp [hnil] at hfront
          refine ⟨fun hn => absurd ((PortQueues.entries_eq_nil_iff _).1 (he.1 hn).1 c) hne, fun hn c' hc' => ?_⟩
          have hcc : c ≠ c' := by
            rintro rfl
            exact hne (he.2 hn c hc')
          have hclear := he.2 hn c' hc'
          have hset := PortQueues.queue_setQueue (s.eqm.port p) c c' (s.eqm.queue p c).tail
          rw [if_neg (Ne.symm hcc), hclear] at hset
          simp only [if_true]
          cases c' <;> exact hset
        · exact he

theorem CouplerQueues.outputsKept : OutputsKept CouplerQueues where
  books s l n x t h := h.congr (fun e => by cases e <;> rfl) (fun e => by cases e <;> rfl) (fun e => by cases e <;> rfl)
  offer s p c x hx h := h.offer p c (.inr hx)
  arbitrate s p h := h.arbitrate p

theorem State.purgeIfLeft_port (t : State) (u : RosterUnit) (e : End) (p : Port) :
    (∀ c, (t.purgeIfLeft u e).eqm.queue p c
        = if (u.standing e = .matched ∧ t.ru.standing e ≠ .matched) ∧ p = End.toPort e ∧ c ≠ .c0 then [] else t.eqm.queue p c)
      ∧ ((t.purgeIfLeft u e).eqm.port p).tx = (t.eqm.port p).tx := by
  obtain ⟨hq, ht⟩ := t.standingLeavePurge_port e p
  unfold State.purgeIfLeft
  split
  · rename_i hleft
    exact ⟨fun c => by rw [hq]; simp only [hleft, ne_eq, not_false_eq_true, and_self, true_and], ht⟩
  · rename_i hleft
    exact ⟨fun c => by rw [if_neg fun h => hleft h.1], rfl⟩

/-- The judgements have changed, and each end that left MATCHED is purged of its data frames (R65, R66). -/
theorem CouplerQueues.purged {t : State} (u : RosterUnit)
    (h : ∀ e, PortServed ((t.clm e).link.isJoined = true) (u.standing e = .matched ∨ t.ru.standing e = .matched)
      (t.eqm.port (End.toPort e))) : CouplerQueues ((t.purgeIfLeft u .a).purgeIfLeft u .b) := by
  rw [couplerQueues_iff]
  intro e
  obtain ⟨hqa, hta⟩ := t.purgeIfLeft_port u .a (End.toPort e)
  obtain ⟨hqb, htb⟩ := (t.purgeIfLeft u .a).purgeIfLeft_port u .b (End.toPort e)
  have htx := htb.trans hta
  have hru : (t.purgeIfLeft u .a).ru = t.ru := by simp
  have hkeep (c : Cls) (hc : t.eqm.queue (End.toPort e) c = []) :
      ((t.purgeIfLeft u .a).purgeIfLeft u .b).eqm.queue (End.toPort e) c = [] := by
    rw [hqb, hqa, hc, ite_self, ite_self]
  have hshrunk := (h e).shrink (m' := u.standing e = .matched ∨ t.ru.standing e = .matched) id id
    (y := ((t.purgeIfLeft u .a).purgeIfLeft u .b).eqm.port (End.toPort e)) hkeep (.inl htx)
  have hserved : PortServed ((t.clm e).link.isJoined = true) (t.ru.standing e = .matched)
      (((t.purgeIfLeft u .a).purgeIfLeft u .b).eqm.port (End.toPort e)) := by
    refine ⟨hshrunk.1, fun hn c hc => ?_⟩
    by_cases hu : u.standing e = .matched
    · have hleft : ((t.purgeIfLeft u .a).purgeIfLeft u .b).eqm.queue (End.toPort e) c = [] := by
        rw [hqb, hqa, hru]
        cases e
        · rw [if_pos (c := (u.standing .a = .matched ∧ t.ru.standing .a ≠ .matched) ∧ End.toPort .a = End.toPort .a ∧ c ≠ .c0)
            ⟨⟨hu, hn⟩, rfl, hc⟩, ite_self]
        · rw [if_pos ⟨⟨hu, hn⟩, rfl, hc⟩]
      exact hleft
    · exact hshrunk.2 (not_or.2 ⟨hu, hn⟩) c hc
  simpa using hserved

/-- A link change keeps the ports served, whatever it judges (R42). -/
theorem CouplerQueues.linkChange {s : State} (h : CouplerQueues s) : CouplerQueues s.linkChange := by
  refine CouplerQueues.outputsKept.handOverNotice _ _ _ (CouplerQueues.purged s.ru fun e => ?_)
  rw [couplerQueues_iff] at h
  simpa using (h e).shrink (m' := s.ru.standing e = .matched ∨ (s.recompute false).ru.standing e = .matched) id .inl (fun _ h => h) (.inl rfl)

/-- A link that is down leaves no end MATCHED (R64). -/
theorem standingOf_ne_matched {c : Clm} (h : c.link.isJoined = false) (x : Option Expectation) : standingOf c x ≠ .matched := by
  have hdown : standingOf c x = if x.isSome then .missing else .vacant := if_neg (by simp [h])
  rw [hdown]
  split <;> simp

namespace CouplerQueues

variable {s t : State}

/-- The port of one end alone changes, with the link of the end. -/
theorem ofEnd (_ : CouplerQueues s) (e : End) (hst : ∀ e', t.ru.standing e' = s.ru.standing e')
    (hclm : ∀ e', e' ≠ e → (t.clm e').link = (s.clm e').link)
    (hport : ∀ e', e' ≠ e → PortServed ((s.clm e').link.isJoined = true) (s.ru.standing e' = .matched) (t.eqm.port (End.toPort e')))
    (he : PortServed ((t.clm e).link.isJoined = true) (s.ru.standing e = .matched) (t.eqm.port (End.toPort e))) : CouplerQueues t := by
  rw [couplerQueues_iff]
  intro e'
  rw [hst]
  by_cases hee : e' = e
  · rw [hee]
    exact he
  · rw [hclm e' hee]
    exact hport e' hee

/-- An abandoned GREET or ROUSE keeps a port served. -/
theorem abandoned {j m j' m' : Prop} {q : Eqm} {p : Port} (hj : j → j') (hm : m → m') (p' : Port) (h : PortServed j m (q.port p')) :
    PortServed j' m' ((q.abandonLinkControl p).port p') := by
  have hq (c : Cls) : (q.abandonLinkControl p).queue p' c = q.queue p' c := by simp
  refine h.shrink hj hm (fun c hc => (hq c).trans hc) ?_
  rcases q.abandonLinkControl_tx p p' with ht | ⟨-, ht⟩
  · exact .inl ht
  · exact .inr (by simp [ht])

theorem linkEvent {e : End} (h : CouplerQueues s) (he : s.LinkEvent e t) : CouplerQueues t := by
  have hports := (couplerQueues_iff s).1 h
  cases he with
  | still c _ hj _ =>
    refine h.ofEnd e (by simp) (fun e' hne => by rw [State.clm_setClm_of_ne _ _ hne]) (fun e' _ => by simpa using hports e') ?_
    rw [State.clm_setClm_self, hj]
    simpa using hports e
  | dark hj _ =>
    have heqm : (s.enterDark e).eqm = s.eqm.abandonLinkControl (End.toPort e) := by simp [State.enterDark]
    refine h.ofEnd e (by simp) (fun e' hne => by rw [State.enterDark_clm, if_neg hne]) (fun e' _ => ?_) ?_
    · rw [heqm]
      exact abandoned id id _ (hports e')
    · rw [heqm]
      exact abandoned (fun hup => by simp [hj] at hup) id _ (hports e)
  | joins c hl hc =>
    refine CouplerQueues.linkChange (h.ofEnd e (by simp) (fun e' hne => by rw [State.clm_setClm_of_ne _ _ hne])
      (fun e' _ => by simpa using hports e') ?_)
    rw [State.clm_setClm_self, hc]
    simpa using (hports e).shrink (j' := LinkState.joined.isJoined = true) (fun _ => rfl) id (fun _ h => h) (.inl rfl)
  | loses c cause cand _ _ =>
    obtain ⟨u, hu, hru, -, -, -, heqm, hclm⟩ := (s.setClm e c).lose_eq e cause cand
    rw [hu]
    obtain ⟨hclear, -⟩ := u.linkLossPurge_port (End.toPort e) (End.toPort e)
    refine CouplerQueues.linkChange (h.ofEnd e (by simp [hru]) (fun e' hne => ?_) (fun e' hne => ?_) ?_)
    · simp [hclm, hne, State.clm_setClm_of_ne]
    · obtain ⟨-, hother⟩ := u.linkLossPurge_port (End.toPort e) (End.toPort e')
      obtain ⟨hq, ht⟩ := hother fun hp => hne (End.toPort_injective hp)
      have hbefore : PortServed ((s.clm e').link.isJoined = true) (s.ru.standing e' = .matched) (u.eqm.port (End.toPort e')) := by
        rcases heqm with heqm | heqm
        · simpa [heqm] using hports e'
        · rw [heqm]
          exact abandoned id id _ (by simpa using hports e')
      exact hbefore.shrink id id (fun c hc => (hq c).trans hc) (.inl ht)
    · exact PortServed.of_clear (hclear rfl)

theorem emptied (q : Eqm) (p : Port) : q.emptied.port p = .empty := by cases p <;> rfl

theorem of_empty (h : ∀ p, t.eqm.port p = .empty) : CouplerQueues t := by
  rw [couplerQueues_iff]
  intro e
  rw [h]
  exact .empty

theorem enterDormant (s : State) : CouplerQueues s.enterDormant :=
  of_empty fun p => by simp [emptied]

/-- A part that wakes has listened on both links, so its ports are clear (R56). -/
theorem wake (h : CouplerQueues s) (hl : ∀ e, (s.clm e).link = .listen) : CouplerQueues s.wake := by
  rw [couplerQueues_iff] at h ⊢
  intro e
  have heqm : s.wake.eqm = (s.eqm.abandonLinkControl .a).abandonLinkControl .b := by simp [State.wake, State.enterDark, End.toPort]
  have hclear : PortServed False False (s.eqm.port (End.toPort e)) := by
    refine .of_clear ((h e).1 ?_)
    rw [hl]
    decide
  rw [heqm]
  exact abandoned False.elim False.elim _ (abandoned id id _ hclear)

theorem completed (h : CouplerQueues s) (p : Port) : CouplerQueues (s.completed p) := by
  have hends (n : Nat) :
      CouplerQueues { s with eqm := { s.eqm.setPort p { s.eqm.port p with tx := none } with freeCells := n } } := by
    rw [couplerQueues_iff] at h ⊢
    intro e
    have hport : PortServed ((s.clm e).link.isJoined = true) (s.ru.standing e = .matched)
        (({ s.eqm.setPort p { s.eqm.port p with tx := none } with freeCells := n } : Eqm).port (End.toPort e)) := by
      rw [Eqm.port_withFreeCells, Eqm.port_setPort]
      split
      · rename_i hp
        have he := h e
        rw [hp] at he
        exact he.shrink id id (fun c hc => by cases c <;> exact hc) (.inr (by simp))
      · exact h e
    cases e <;> exact hport
  simp only [State.completed]
  split
  · exact h
  · split
    · split
      · exact enterDormant _
      · exact hends _
    · exact hends _
    · exact hends _

theorem cmdSleep (h : CouplerQueues s) (r : Request) : CouplerQueues (s.cmdSleep r) := by
  simp only [State.cmdSleep]
  split
  · exact outputsKept.refuse s _ _ _ _ h
  · split
    · exact h.offer .c .c0 (.inl rfl)
    · split
      · have hpending : CouplerQueues { s with cu := { s.cu with sleepPending := true } } :=
          h.congr (fun e => by cases e <;> rfl) (fun _ => rfl) (fun _ => rfl)
        exact hpending.offer .c .c0 (.inl rfl)
      · exact enterDormant _

/-- After the re-evaluation no data frame waits on a port that takes none (R116 to R120); C0 and the lines are as before. -/
theorem changeover (h : CouplerQueues s) (b : StagingBody) (r : ConfirmedRecord) :
    CouplerQueues ((((s.swapRosters b r).recompute true).reevaluate.purgeIfLeft s.ru .a).purgeIfLeft s.ru .b) := by
  refine CouplerQueues.purged s.ru fun e => ?_
  generalize hu : (s.swapRosters b r).recompute true = u
  have heqm : u.eqm = s.eqm := by simp [← hu]
  have hclm : u.reevaluate.clm e = s.clm e := by simp [← hu]
  have hst : u.reevaluate.ru.standing e = u.ru.standing e := by simp
  have hdata (hn : u.ru.standing e ≠ .matched) : (u.reevaluate.eqm.port (End.toPort e)).DataClear := by
    have hun (d : DataClass) : u.Unservable (End.toPort e) d :=
      .inr (Bool.eq_false_iff.2 fun hm => hn ((u.portMatched_toPort e).1 hm))
    intro c hc
    cases c with
    | c0 => exact absurd rfl hc
    | c1 => exact State.reevaluate_unservable (hun .c1)
    | c2 => exact State.reevaluate_unservable (hun .c2)
    | c3 => exact State.reevaluate_unservable (hun .c3)
  rw [hclm, hst]
  refine ⟨fun hn => ?_, fun hn => hdata (not_or.1 hn).2⟩
  have hdown : (s.clm e).link.isJoined = false := by simpa using hn
  have hunmatched : u.ru.standing e ≠ .matched := by
    rw [← hu, State.recompute_standing]
    exact standingOf_ne_matched (by simpa using hdown) _
  obtain ⟨hnil, htx⟩ := ((couplerQueues_iff s).1 h e).1 hn
  obtain ⟨hspared, -⟩ := u.reevaluate_sparesControl
  obtain ⟨hc0, hline⟩ := hspared (End.toPort e)
  rw [heqm] at hc0 hline
  refine ⟨(PortQueues.entries_eq_nil_iff _).2 fun c => ?_, by rwa [hline]⟩
  by_cases hc : c = .c0
  · rw [hc]
    exact hc0.trans ((PortQueues.entries_eq_nil_iff _).1 hnil .c0)
  · exact hdata hunmatched c hc

/-- The invariant of a step: served ports, and LISTEN while DORMANT. -/
def AndListens (s : State) : Prop := CouplerQueues s ∧ (s.power = .dormant → ∀ e, (s.clm e).link = .listen)

theorem listens_of_active {t : State} (h : t.power = .active) : t.power = .dormant → ∀ e, (t.clm e).link = .listen := by
  simp [h]

theorem listens_congr {s t : State} (h : s.power = .dormant → ∀ e, (s.clm e).link = .listen) (hp : t.power = s.power)
    (hclm : ∀ e, (t.clm e).link = (s.clm e).link) : t.power = .dormant → ∀ e, (t.clm e).link = .listen := by
  simpa only [hp, hclm] using h

/-- A link in LISTEN stays there through its events. -/
theorem listens_linkEvent {e : End} (h : s.power = .dormant → ∀ e, (s.clm e).link = .listen) (he : s.LinkEvent e t) :
    t.power = .dormant → ∀ e, (t.clm e).link = .listen := by
  cases he with
  | still c _ _ hc =>
    intro hp e'
    have hl := h (by simpa using hp)
    rw [State.clm_setClm]
    split
    · exact hc.2 (hl e)
    · exact hl e'
  | dark _ hl => exact fun hp => absurd (h (by simpa using hp) e) hl
  | joins c hl _ =>
    intro hp
    have hlisten := h (by simpa using hp) e
    simp [hlisten] at hl
  | loses c cause cand hj _ =>
    intro hp
    have hlisten := h (by simpa using hp) e
    simp [hlisten, LinkState.isJoined] at hj

namespace AndListens

theorem same (h : AndListens s) (hp : t.power = s.power) (hclm : ∀ e, (t.clm e).link = (s.clm e).link)
    (hst : ∀ e, t.ru.standing e = s.ru.standing e) (hport : ∀ e, t.eqm.port (End.toPort e) = s.eqm.port (End.toPort e)) :
    AndListens t :=
  ⟨h.1.congr hclm hst hport, listens_congr h.2 hp hclm⟩

theorem of_fields (h : AndListens s) (hp : t.power = s.power) (hclm : t.clmA.link = s.clmA.link ∧ t.clmB.link = s.clmB.link)
    (hst : t.ru.standingA = s.ru.standingA ∧ t.ru.standingB = s.ru.standingB)
    (hport : t.eqm.portA = s.eqm.portA ∧ t.eqm.portB = s.eqm.portB) : AndListens t :=
  h.same hp (forall_end.2 hclm) (forall_end.2 hst) (forall_end.2 hport)

theorem linkEvent {e : End} (h : AndListens s) (he : s.LinkEvent e t) : AndListens t :=
  ⟨h.1.linkEvent he, listens_linkEvent h.2 he⟩

theorem enterDormant (s : State) : AndListens s.enterDormant :=
  ⟨CouplerQueues.enterDormant s, fun _ e => by rw [State.enterDormant_clm]; rfl⟩

theorem stateClosed : StateClosed AndListens where
  books s l n x t h := h.of_fields rfl ⟨rfl, rfl⟩ ⟨rfl, rfl⟩ ⟨rfl, rfl⟩
  offer s p c x hx h := ⟨h.1.offer p c (.inr hx), listens_congr h.2 (by simp) (by simp)⟩
  arbitrate s p h := ⟨h.1.arbitrate p, listens_congr h.2 (by simp) fun e => by
    obtain ⟨slot, hslot⟩ := s.arbitrate_clm p e
    rw [hslot]⟩
  tick s h := h.of_fields rfl ⟨rfl, rfl⟩ ⟨rfl, rfl⟩ ⟨rfl, rfl⟩
  wakeInput s v h := h.of_fields rfl ⟨rfl, rfl⟩ ⟨rfl, rfl⟩ ⟨rfl, rfl⟩
  presenceAsserted s e _ h :=
    (h.same (t := s.setPresence e true) (by simp) (by simp) (by simp) (by simp)).linkEvent .presenceAsserted
  presenceNegated s e _ h :=
    (h.same (t := s.setPresence e false) (by simp) (by simp) (by simp) (by simp)).linkEvent .presenceNegated
  capture s x _ h := h.of_fields rfl ⟨rfl, rfl⟩ ⟨rfl, rfl⟩ ⟨rfl, rfl⟩
  wake s hd h := ⟨h.1.wake (h.2 hd), listens_of_active (by simp)⟩
  settleExpired s e _ h := h.linkEvent .settleExpired
  greetExpired s e _ h := h.linkEvent .greetExpired
  fadeExpired s e _ h := h.linkEvent .fadeExpired
  rouseExpired s e _ h := h.linkEvent .rouseExpired
  validGreet s e g h := h.linkEvent (.validGreet g)
  completed s p h := by
    refine ⟨h.1.completed p, ?_⟩
    simp only [State.completed]
    split
    · exact h.2
    · split
      · split
        · exact (enterDormant _).2
        · exact listens_congr h.2 rfl fun e => by rw [State.clm_withEqm]
      · exact listens_congr h.2 rfl fun e => by rw [State.clm_withEqm]
      · exact listens_congr h.2 rfl fun e => by rw [State.clm_withEqm]
  cmdSleep s r h := by
    refine ⟨h.1.cmdSleep r, ?_⟩
    simp only [State.cmdSleep]
    split
    · exact listens_congr h.2 (by simp) (by simp)
    · split
      · exact listens_congr h.2 (by simp) (by simp)
      · split
        · exact listens_congr h.2 (by simp) (forall_end.2 (by simp [State.clm]))
        · exact (enterDormant _).2
  restarted s _ := ⟨of_empty fun p => by cases p <;> simp [Eqm.powerOn, Eqm.port], listens_of_active (by simp)⟩
  poweredOn s _ := ⟨of_empty fun p => by cases p <;> rfl, listens_of_active rfl⟩
  identity s w _ h :=
    ((h.of_fields (t := { s with cu := { s.cu with identity := w, loaded := true } }) rfl ⟨rfl, rfl⟩ ⟨rfl, rfl⟩ ⟨rfl, rfl⟩).linkEvent
      (.settleIfReady (e := .a))).linkEvent (.settleIfReady (e := .b))
  report s h := h.of_fields rfl ⟨rfl, rfl⟩ ⟨rfl, rfl⟩ ⟨rfl, rfl⟩
  hold s x h := h.of_fields rfl ⟨rfl, rfl⟩ ⟨rfl, rfl⟩ ⟨rfl, rfl⟩
  rule s i l x _ _ h := h.of_fields rfl ⟨rfl, rfl⟩ ⟨rfl, rfl⟩ ⟨rfl, rfl⟩
  policy s q c h := h.of_fields rfl ⟨rfl, rfl⟩ ⟨rfl, rfl⟩ ⟨rfl, rfl⟩
  timing s x v _ _ h := h.of_fields (by simp) (by simp only [State.setTiming]; split <;> exact ⟨rfl, rfl⟩) (by simp) (by simp)
  emptied s h := h.of_fields rfl ⟨rfl, rfl⟩ ⟨rfl, rfl⟩ ⟨rfl, rfl⟩
  opened s m w _ h := h.of_fields rfl ⟨rfl, rfl⟩ ⟨rfl, rfl⟩ ⟨rfl, rfl⟩
  loaded s b l n w _ _ _ _ h := h.of_fields rfl ⟨rfl, rfl⟩ ⟨rfl, rfl⟩ ⟨rfl, rfl⟩
  confirming s b w t _ _ _ h := h.of_fields rfl ⟨rfl, rfl⟩ ⟨rfl, rfl⟩ ⟨rfl, rfl⟩
  folded s h := h.same (by simp) (by simp) (by simp) (by simp)
  confirmed s b t w l _ _ h := h.of_fields rfl ⟨rfl, rfl⟩ ⟨rfl, rfl⟩ ⟨rfl, rfl⟩
  graceEnded s h := h.of_fields rfl ⟨rfl, rfl⟩ ⟨rfl, rfl⟩ ⟨rfl, rfl⟩
  changeover s b r _ h := ⟨h.1.changeover b r, listens_congr h.2 (by simp) (by simp)⟩
  interpret s f h := h.same (by simp) (by simp) (by simp) (by simp)

end AndListens

end CouplerQueues

/-- Settles O55: a port is purged when its link is lost or its end leaves MATCHED, and takes only what test 2 of R155 lets through. -/
theorem stepKeepsCouplerPortsClear : Obligations.StepKeepsCouplerPortsClear := fun _ _ hc hd hstep =>
  (CouplerQueues.AndListens.stateClosed.step
    (fun _ _ h => h.of_fields rfl ⟨rfl, rfl⟩ ⟨rfl, rfl⟩ ⟨rfl, rfl⟩) ⟨hc, fun hp => (hd.1 hp).1⟩ hstep).1

end Sys2Proof.Machine
end

section
/-! The rows that hand a request to the command unit (R171, R172), and the staging commands (R88 to R101): LOAD-BEGIN in EXTEND mode, CONFIRM
and DISCARD. Each command is a chain of tests; one lemma says what the chain gives where a test fails and where all pass. -/

namespace Sys2Proof.Machine

/-! ## The request rows -/

/-- R171: a request row hands its command and request to the command unit. -/
theorem exec_of_asRequest {i : Instr} {c : Command} {r : Request} (h : Instr.asRequest i = some (c, r)) (s : State) :
    exec i s = s.runs (·.request c r) := by
  cases i <;> cases h <;> rfl

/-- A request that passes the common tests runs its command. -/
theorem exec_of_passes {i : Instr} {c : Command} {r : Request} {s : State} (h : Instr.asRequest i = some (c, r)) (hs : s.served)
    (hp : s.passes c r) : exec i s = .next (s.runCommand c r) := by
  rw [exec_of_asRequest h, State.runs_of_served hs, State.request_of_passes hp]

/-! ## LOAD-BEGIN -/

section
variable {s : State} {r : Request} {m : Mode}

theorem State.cmdLoadBegin_of_refusal {o : ReplyCode} {d : List Byte} (hm : modeOfParams r.params = some m)
    (h : s.loadBeginRefusal m r = some (o, d)) : s.cmdLoadBegin r = s.refuse r 0x20 o d := by
  simp only [State.cmdLoadBegin, hm, h]
  rfl

theorem State.cmdLoadBegin_of_no_refusal (hm : modeOfParams r.params = some m) (h : s.loadBeginRefusal m r = none) :
    s.cmdLoadBegin r
      = (s.beginStaging m (Request.sender r)).respond r 0x20 .done (s.openedBody m (Request.sender r)).progress := by
  simp only [State.cmdLoadBegin, hm, h]
  rfl

/-- The tests of R89 in EXTEND mode, in their order. -/
theorem State.loadBeginRefusal_extend (s : State) (r : Request) :
    s.loadBeginRefusal .extend r =
      if s.su.staging.openTo (Request.sender r) = false then some (.stagingOwned, s.su.staging.ownerBytes)
      else if s.ru.active.records = [] then some (.noActive, [])
      else if ¬ (r.port = .c ∨ s.ru.authority = .orphaned ∨ s.isMaster (Request.sender r) = true) then some (.notAuthorised, [])
      else none := by
  simp only [State.loadBeginRefusal, true_and, List.isEmpty_iff, not_or, ne_eq]

end

/-- R92: a CONFIRM in progress is answered STAGING_STATE and counted. -/
theorem State.answerAbandoned_of_confirming {s : State} {b : StagingBody} {t : ConfirmTicket} (h : s.su.staging = .confirming b t) :
    s.answerAbandoned = s.countRefusal.answer (t.replyTo b.owner) .stagingState [] := by
  simp only [State.answerAbandoned, h]

/-- Settles O42, by the tests of R89 in their order. -/
theorem loadBeginExtendCopiesActiveRoster : Obligations.LoadBeginExtendCopiesActiveRoster := by
  intro r s hs hp hm
  have hmode : modeOfParams r.params = some .extend := by rw [hm]; rfl
  have htests := s.loadBeginRefusal_extend r
  rw [exec_of_passes rfl hs hp, State.runCommand]
  refine ⟨fun b hb ho => ?_, fun hopen hr => ?_, fun hopen hr hc ha hmaster => ?_, fun hopen hr hgranted => ?_,
    fun b t h => State.answerAbandoned_of_confirming h⟩
  · rw [if_pos (by simpa [Staging.openTo_of_body hb] using ho), Staging.ownerBytes_of_body hb] at htests
    rw [State.cmdLoadBegin_of_refusal hmode htests]
    rfl
  all_goals rw [if_neg (by simpa using (s.su.staging.openTo_iff _).2 hopen)] at htests
  · rw [if_pos hr] at htests
    rw [State.cmdLoadBegin_of_refusal hmode htests]
    rfl
  all_goals rw [if_neg hr] at htests
  · rw [if_pos (by simpa [hc, ha] using mt (s.isMaster_iff r).1 hmaster)] at htests
    rw [State.cmdLoadBegin_of_refusal hmode htests]
    rfl
  · rw [← s.isMaster_iff] at hgranted
    rw [if_neg (not_not_intro hgranted)] at htests
    rw [State.cmdLoadBegin_of_no_refusal hmode htests]
    rfl

/-! ## DISCARD -/

/-- R100: a DISCARD is taken from the owner, the master and port C, and in EMPTY from every sender. -/
theorem State.mayDiscard_iff (s : State) (r : Request) :
    s.mayDiscard r = true ↔ s.su.staging = .empty ∨ (∃ b, s.su.staging.body? = some b ∧ b.owner = Request.sender r)
      ∨ s.sentByMaster r ∨ r.port = .c := by
  simp only [State.mayDiscard, Bool.or_eq_true, Staging.openTo_iff, State.isMaster_iff, beq_iff_eq, or_assoc]

/-- Settles O45, by the test of R100. -/
theorem discardEmptiesStaging : Obligations.DiscardEmptiesStaging := by
  intro r s hs hp hparams
  rw [exec_of_passes rfl hs hp, State.runCommand, State.cmdDiscard, if_neg (not_not_intro hparams)]
  refine ⟨fun hgranted => ?_, fun hrefused b hb => ?_⟩
  · rw [if_neg (by simpa using (s.mayDiscard_iff r).2 hgranted)]
    rfl
  · rw [if_pos (by simpa using mt (s.mayDiscard_iff r).1 hrefused), Staging.ownerBytes_of_body hb]
    rfl

/-! ## CONFIRM -/

/-- R62: a roster names an identity where it has a record of it. -/
theorem recordOf_isNone_iff (rs : List Record) (w : Word) : (recordOf rs w).isNone = true ↔ ¬ ∃ x ∈ rs, x.identity = w := by
  simp [recordOf, List.find?_eq_none]

section
variable {s : State} {r : Request}

theorem State.cmdConfirm_of_not_filling (hlen : r.params.length = 7) (h : ∀ b, s.su.staging ≠ .filling b) :
    s.cmdConfirm r = s.refuse r 0x22 .stagingState [] := by
  rw [State.cmdConfirm, if_neg (not_not_intro hlen)]
  cases hst : s.su.staging with
  | filling b => exact absurd hst (h b)
  | empty | confirming _ _ | confirmed _ _ => rfl

theorem State.cmdConfirm_of_refusal {b : StagingBody} {o : ReplyCode} {d : List Byte} (hlen : r.params.length = 7)
    (hb : s.su.staging = .filling b)
    (h : s.confirmRefusal b (Request.sender r) (halfAt r.params 0) (byteAt r.params 2).toNat = some (o, d)) :
    s.cmdConfirm r = s.refuse r 0x22 o d := by
  rw [State.cmdConfirm, if_neg (not_not_intro hlen)]
  simp only [hb, h]
  rfl

/-- A CONFIRM that is taken starts the finish over the trailer of its generation and count (R86, R96). -/
theorem State.cmdConfirm_of_no_refusal {b : StagingBody} (hlen : r.params.length = 7) (hb : s.su.staging = .filling b)
    (h : s.confirmRefusal b (Request.sender r) (halfAt r.params 0) (byteAt r.params 2).toNat = none) :
    s.cmdConfirm r =
      { s with su :=
        { staging := .confirming b
            { generation := halfAt r.params 0, count := (byteAt r.params 2).toNat, expected := wordAt r.params 3
              requestTag := r.requestTag, seqTag := r.seqTag, port := r.port }
          job := .finish b.context (trailer (halfAt r.params 0) (byteAt r.params 2).toNat)
          timer := s.stagingTimerStart } } := by
  rw [State.cmdConfirm, if_neg (not_not_intro hlen)]
  simp only [hb, h]

end

/-- The trailer of a CONFIRM as its parameter field has it. -/
theorem trailer_halfAt (l : List Byte) :
    trailer (halfAt l 0) (byteAt l 2).toNat = [byteAt l 0, byteAt l 1, byteAt l 2, 0xA5] := by
  rw [trailer, bytes_halfAt, natByte, BitVec.ofNat_toNat, BitVec.setWidth_eq]
  rfl

/-- Settles O44, by the tests of R96 in their order. -/
theorem confirmStartsFinish : Obligations.ConfirmStartsFinish := by
  intro r s hs hp hlen
  rw [exec_of_passes rfl hs hp, State.runCommand]
  dsimp only
  refine ⟨fun h => by rw [State.cmdConfirm_of_not_filling hlen h]; rfl, fun b hb => ?_⟩
  have refused : ∀ {o d}, s.confirmRefusal b (Request.sender r) (halfAt r.params 0) (byteAt r.params 2).toNat = some (o, d) →
      (.next (s.cmdConfirm r) : Host.Outcome State Fault Refusal)
        = .next (({ s with cu := { s.cu with refusals := saturate s.cu.refusals } }).respond r 0x22 o d) :=
    fun h => congrArg _ (State.cmdConfirm_of_refusal hlen hb h)
  have hgeneration : ∀ g : Half, (g = 0 ∨ g = s.ru.active.generation) ↔ ¬ (g ≠ 0 ∧ g ≠ s.ru.active.generation) := fun g =>
    ⟨fun h hn => h.elim hn.1 hn.2, fun h => (Classical.not_and_iff_not_or_not.1 h).imp Classical.not_not.1 Classical.not_not.1⟩
  have hmaster : (s.ru.authority = .governed ∧ s.isMaster b.owner = false
      ∧ b.records.any (fun x => s.isMaster x.identity) = false) ↔
      ¬ (s.ru.authority ≠ .governed ∨ masterIdentity s.ru.active.records = some b.owner
          ∨ ∃ x ∈ b.records, masterIdentity s.ru.active.records = some x.identity) := by
    simp [State.isMaster]
  simp only [State.confirmRefusal, hgeneration, recordOf_isNone_iff, hmaster] at refused
  refine ⟨fun h2 => refused ?_, fun h2 h3 => refused ?_, fun h2 h3 h4 => refused ?_, fun h2 h3 h4 h5 => refused ?_,
    fun h2 h3 h4 h5 h6 => refused ?_, fun h2 h3 h4 h5 h6 h7 => refused ?_, fun h2 h3 h4 h5 h6 h7 h8 => refused ?_,
    fun h2 h3 h4 h5 h6 h7 h8 => ?_⟩
  · rw [if_pos h2]
  · rw [if_neg (not_not_intro h2), if_pos h3]
  · rw [if_neg (not_not_intro h2), if_neg (not_not_intro h3), if_pos h4]
  · rw [if_neg (not_not_intro h2), if_neg (not_not_intro h3), if_neg (not_not_intro h4), if_pos h5]
  · rw [if_neg (not_not_intro h2), if_neg (not_not_intro h3), if_neg (not_not_intro h4), if_neg (not_not_intro h5), if_pos h6]
  · rw [if_neg (not_not_intro h2), if_neg (not_not_intro h3), if_neg (not_not_intro h4), if_neg (not_not_intro h5),
      if_neg (not_not_intro h6), if_pos h7]
  · rw [if_neg (not_not_intro h2), if_neg (not_not_intro h3), if_neg (not_not_intro h4), if_neg (not_not_intro h5),
      if_neg (not_not_intro h6), if_neg (not_not_intro h7), if_pos h8]
  · have hnone : s.confirmRefusal b (Request.sender r) (halfAt r.params 0) (byteAt r.params 2).toNat = none := by
      simp only [State.confirmRefusal, hgeneration, recordOf_isNone_iff, hmaster]
      rw [if_neg (not_not_intro h2), if_neg (not_not_intro h3), if_neg (not_not_intro h4), if_neg (not_not_intro h5),
        if_neg (not_not_intro h6), if_neg (not_not_intro h7), if_neg (not_not_intro h8)]
    rw [State.cmdConfirm_of_no_refusal hlen hb hnone, trailer_halfAt, h4]
    rfl

/-! ## The check unit and the staging timer -/

theorem State.blockFoldDone_of_fold {s : State} {w : Word} {l : List Byte} {b : StagingBody} (hj : s.su.job = .blockFold w l)
    (hb : s.su.staging = .filling b) :
    s.blockFoldDone = { s with su := { s.su with staging := .filling { b with context := crcFold w l }, job := .idle } } := by
  simp only [State.blockFoldDone, hj, hb, Staging.setContext]

theorem State.blockFoldDone_of_no_fold {s : State} (h : ∀ w l, s.su.job ≠ .blockFold w l) : s.blockFoldDone = s := by
  cases hj : s.su.job with
  | blockFold w l => exact absurd hj (h w l)
  | idle | finish _ _ => simp only [State.blockFoldDone, hj]

theorem State.finishDone_of_finish {s : State} {w : Word} {l : List Byte} {b : StagingBody} {t : ConfirmTicket}
    (hj : s.su.job = .finish w l) (hb : s.su.staging = .confirming b t) : s.finishDone = s.finishWith b t (crcFold w l) := by
  simp only [State.finishDone, hj, hb]

theorem State.finishDone_of_no_finish {s : State} (h : ∀ w l, s.su.job ≠ .finish w l) : s.finishDone = s := by
  cases hj : s.su.job with
  | finish w l => exact absurd hj (h w l)
  | idle | blockFold _ _ => simp only [State.finishDone, hj]

theorem exec_blockFoldCompletion {s : State} (hs : s.served) : exec .blockFoldCompletion s = .next s.blockFoldDone :=
  State.runs_of_served hs _

theorem exec_finishCompletion {s : State} (hs : s.served) : exec .finishCompletion s = .next s.finishDone :=
  State.runs_of_served hs _

/-- Settles O31: the job decides whether a completion has anything to complete, and the computed word what a finish gives. -/
theorem foldCompletions : Obligations.FoldCompletions := by
  intro s hs
  rw [exec_blockFoldCompletion hs, exec_finishCompletion hs]
  refine ⟨fun w l b hj hb => congrArg _ (State.blockFoldDone_of_fold hj hb),
    fun h => congrArg _ (State.blockFoldDone_of_no_fold h), fun w l b t hj hb => ?_,
    fun h => congrArg _ (State.finishDone_of_no_finish h)⟩
  rw [State.finishDone_of_finish hj hb, State.finishWith]
  exact ⟨fun hw => by rw [if_pos hw]; rfl, fun hw => by rw [if_neg hw]; rfl⟩

theorem exec_stagingTimerExpiry {s : State} (hs : s.served) :
    exec .stagingTimerExpiry s = .next (if isDue s.su.timer then s.emptyStaging else s) :=
  State.runs_of_served hs fun s => if isDue s.su.timer then s.emptyStaging else s

/-- Settles O32: a due expiry is `State.emptyStaging`, which answers a CONFIRM in progress first. -/
theorem stagingTimerExpiryEmptiesStaging : Obligations.StagingTimerExpiryEmptiesStaging := by
  intro s hs
  rw [exec_stagingTimerExpiry hs]
  refine ⟨fun h => ?_, fun h hst => ?_, fun b t h hst => ?_⟩
  · rw [if_neg (mt (isDue_iff _).1 h)]
  · rw [if_pos ((isDue_iff _).2 h), State.emptyStaging, State.answerAbandoned_of_not_confirming hst]
    rfl
  · rw [if_pos ((isDue_iff _).2 h), State.emptyStaging, State.answerAbandoned_of_confirming hst]
    rfl

end Sys2Proof.Machine
end

section
/-! LOAD-RECORDS (R93 to R95). The first record that is not valid is found along the block: what stands before it fits. -/

namespace Sys2Proof.Machine

/-! ## The first record that is not valid -/

/-- R94 for one record: the position it must hold, the identities known before it, and its reserved bits. -/
def RecordFits (next : Nat) (known : List Word) (x : Record × Bool) : Prop :=
  x.1.position = next ∧ validIdentity x.1.identity = true ∧ x.1.identity ∉ known ∧ x.2 = true

theorem firstBadRecord_cons_of_fits {next : Nat} {known : List Word} {x : Record × Bool} (h : RecordFits next known x) (i : Nat)
    (l : List (Record × Bool)) :
    firstBadRecord next known i (x :: l) = firstBadRecord (next + 1) (x.1.identity :: known) (i + 1) l := by
  obtain ⟨hposition, hvalid, hnew, hreserved⟩ := h
  simp [firstBadRecord, hposition, hvalid, hnew, hreserved]

theorem firstBadRecord_cons_of_not_fits {next : Nat} {known : List Word} {x : Record × Bool} (h : ¬ RecordFits next known x)
    (i : Nat) (l : List (Record × Bool)) : firstBadRecord next known i (x :: l) = some i := by
  rw [firstBadRecord, if_neg]
  rintro ⟨hposition, hvalid, hnew, hreserved⟩
  exact h ⟨hposition, hvalid, by simpa using hnew, hreserved⟩

/-- The records before the first bad one are passed, and their identities known after it. -/
theorem firstBadRecord_append_of_fits {next : Nat} {known : List Word} {l : List (Record × Bool)} (h : BlockFits next known l)
    (i : Nat) (m : List (Record × Bool)) :
    firstBadRecord next known i (l ++ m)
      = firstBadRecord (next + l.length) ((l.map (·.1.identity)).reverse ++ known) (i + l.length) m := by
  induction l generalizing next known i with
  | nil => rfl
  | cons x l ih =>
    obtain ⟨hx, hl⟩ := (blockFits_cons ..).1 h
    rw [List.cons_append, firstBadRecord_cons_of_fits hx, ih hl]
    simp [Nat.add_assoc, Nat.add_comm 1]

theorem blockFits_concat (next : Nat) (known : List Word) (l : List (Record × Bool)) (x : Record × Bool) :
    BlockFits next known (l ++ [x]) ↔
      BlockFits next known l ∧ RecordFits (next + l.length) ((l.map (·.1.identity)).reverse ++ known) x := by
  rw [← firstBadRecord_eq_none_iff next known 1 (l ++ [x])]
  by_cases hl : BlockFits next known l
  · rw [firstBadRecord_append_of_fits hl]
    by_cases hx : RecordFits (next + l.length) ((l.map (·.1.identity)).reverse ++ known) x
    · rw [firstBadRecord_cons_of_fits hx]
      exact iff_of_true rfl ⟨hl, hx⟩
    · simp [firstBadRecord_cons_of_not_fits hx, hx]
  · refine iff_of_false (fun h => hl ?_) fun h => hl h.1
    obtain ⟨hpos, hnodup, hall⟩ := (firstBadRecord_eq_none_iff ..).1 h
    refine ⟨?_, ?_, fun y hy => hall y (List.mem_append_left _ hy)⟩
    · have := congrArg (List.take l.length) hpos
      simpa using this
    · rw [List.map_append] at hnodup
      exact (List.nodup_append.1 hnodup).1

/-! ## The records of a parameter field -/

/-- R94 for the record of index `i` of the images of a block, on top of the records `rs`. -/
def ImageFits (rs : List Record) (images : List Byte) (i : Nat) : Prop :=
  (recordAt images (6 * i)).position = rs.length + 1 + i
    ∧ (recordAt images (6 * i)).identity ≠ 0 ∧ (recordAt images (6 * i)).identity ≠ 0xFFFFFFFF
    ∧ byteAt images (6 * i + 5) &&& 0xFC#8 = 0
    ∧ (∀ x ∈ rs, x.identity ≠ (recordAt images (6 * i)).identity)
    ∧ ∀ j, j < i → (recordAt images (6 * j)).identity ≠ (recordAt images (6 * i)).identity

/-- The records of the images of a block, the count byte apart. -/
def imageRecords (images : List Byte) (n : Nat) : List (Record × Bool) :=
  (List.range n).map fun i => (recordAt images (6 * i), reservedClear images (6 * i))

@[simp] theorem imageRecords_length (images : List Byte) (n : Nat) : (imageRecords images n).length = n := by simp [imageRecords]

theorem imageRecords_succ (images : List Byte) (n : Nat) :
    imageRecords images (n + 1) = imageRecords images n ++ [(recordAt images (6 * n), reservedClear images (6 * n))] := by
  simp [imageRecords, List.range_succ]

theorem imageRecords_split (images : List Byte) {i n : Nat} (h : i < n) :
    ∃ l, imageRecords images n = imageRecords images i ++ (recordAt images (6 * i), reservedClear images (6 * i)) :: l := by
  obtain ⟨k, rfl⟩ := Nat.exists_eq_add_of_le (Nat.succ_le_of_lt h)
  refine ⟨(List.range k).map fun j => (recordAt images (6 * (i + 1 + j)), reservedClear images (6 * (i + 1 + j))), ?_⟩
  rw [imageRecords, List.range_add, List.map_append, List.map_map, ← imageRecords, Nat.succ_eq_add_one, imageRecords_succ,
    List.append_assoc]
  rfl

theorem blockRecords_cons (n : Byte) (images : List Byte) (k : Nat) : blockRecords (n :: images) k = imageRecords images k := by
  refine List.map_congr_left fun i _ => ?_
  rw [Nat.add_comm 1]
  rfl

/-- R94: the record of index `i` fits after the records before it. -/
theorem recordFits_image_iff (rs : List Record) (images : List Byte) (i : Nat) :
    RecordFits (rs.length + 1 + i) (((imageRecords images i).map (·.1.identity)).reverse ++ rs.map (·.identity))
        (recordAt images (6 * i), reservedClear images (6 * i)) ↔ ImageFits rs images i := by
  have hbefore : (imageRecords images i).map (·.1.identity) = (List.range i).map fun j => (recordAt images (6 * j)).identity := by
    simp [imageRecords]
  simp only [RecordFits, ImageFits, validIdentity_iff, reservedClear, hbefore, List.mem_append, List.mem_reverse, List.mem_map,
    List.mem_range, beq_iff_eq, not_or, not_exists, not_and, ne_eq]
  constructor
  · rintro ⟨hpos, ⟨hzero, hall⟩, ⟨hblock, hrs⟩, hclear⟩
    exact ⟨hpos, hzero, hall, hclear, hrs, hblock⟩
  · rintro ⟨hpos, hzero, hall, hclear, hrs, hblock⟩
    exact ⟨hpos, ⟨hzero, hall⟩, ⟨hblock, hrs⟩, hclear⟩

theorem blockFits_imageRecords_iff (rs : List Record) (images : List Byte) (n : Nat) :
    BlockFits (rs.length + 1) (rs.map (·.identity)) (imageRecords images n) ↔ ∀ i, i < n → ImageFits rs images i := by
  induction n with
  | zero => simp [imageRecords, BlockFits]
  | succ n ih =>
    rw [imageRecords_succ, blockFits_concat, ih, imageRecords_length, recordFits_image_iff]
    grind

/-- R94: the first record that does not fit is named by its index from 1. -/
theorem firstBadRecord_imageRecords {rs : List Record} {images : List Byte} {i n : Nat} (hi : i < n)
    (hfits : ∀ j, j < i → ImageFits rs images j) (hbad : ¬ ImageFits rs images i) :
    firstBadRecord (rs.length + 1) (rs.map (·.identity)) 1 (imageRecords images n) = some (i + 1) := by
  obtain ⟨l, hl⟩ := imageRecords_split images hi
  rw [hl, firstBadRecord_append_of_fits ((blockFits_imageRecords_iff ..).2 hfits), imageRecords_length,
    firstBadRecord_cons_of_not_fits (mt (recordFits_image_iff ..).1 hbad), Nat.add_comm]

/-! ## The command -/

section
variable {s : State} {r : Request} {n : Nat}

theorem State.cmdLoadRecords_of_not_filling (hn : blockCount r.params = some n) (h : ∀ b, s.su.staging ≠ .filling b) :
    s.cmdLoadRecords r = s.refuse r 0x21 .stagingState [] := by
  simp only [State.cmdLoadRecords, hn]
  cases hst : s.su.staging with
  | filling b => exact absurd hst (h b)
  | empty | confirming _ _ | confirmed _ _ => rfl

theorem State.cmdLoadRecords_of_refusal {b : StagingBody} {o : ReplyCode} {d : List Byte} (hn : blockCount r.params = some n)
    (hb : s.su.staging = .filling b)
    (h : b.loadRefusal s.su.job (Request.sender r) (blockRecords r.params n) = some (o, d)) :
    s.cmdLoadRecords r = s.refuse r 0x21 o d := by
  simp only [State.cmdLoadRecords, hn, hb, h]
  rfl

theorem State.cmdLoadRecords_of_no_refusal {b : StagingBody} (hn : blockCount r.params = some n) (hb : s.su.staging = .filling b)
    (h : b.loadRefusal s.su.job (Request.sender r) (blockRecords r.params n) = none) :
    s.cmdLoadRecords r =
      ({ s with su := { staging := .filling (b.append (blockRecords r.params n))
                        job := .blockFold b.context (r.params.drop 1), timer := s.stagingTimerStart } }).respond
        r 0x21 .done (b.append (blockRecords r.params n)).progress := by
  simp only [State.cmdLoadRecords, hn, hb, h]
  rfl

end

/-- Settles O43, by the tests of R93 in their order. -/
theorem loadRecordsAppendsBlock : Obligations.LoadRecordsAppendsBlock := by
  intro r s n images hs hp hparams hlow hhigh hlen
  have hn : blockCount r.params = some n.toNat := by
    rw [hparams, blockCount, if_pos ⟨hlow, hhigh, hlen⟩]
  rw [exec_of_passes rfl hs hp, State.runCommand]
  dsimp only
  refine ⟨fun h => by rw [State.cmdLoadRecords_of_not_filling hn h]; rfl, fun b hb => ?_⟩
  have hblock : blockRecords r.params n.toNat = imageRecords images n.toNat := by rw [hparams, blockRecords_cons]
  have refused : ∀ {o d}, b.loadRefusal s.su.job (Request.sender r) (imageRecords images n.toNat) = some (o, d) →
      (.next (s.cmdLoadRecords r) : Host.Outcome State Fault Refusal)
        = .next (({ s with cu := { s.cu with refusals := saturate s.cu.refusals } }).respond r 0x21 o d) :=
    fun h => congrArg _ (State.cmdLoadRecords_of_refusal hn hb (by rw [hblock, h]))
  simp only [StagingBody.loadRefusal, imageRecords_length] at refused
  refine ⟨fun howner => refused ?_, fun howner hjob => refused ?_, fun howner hjob hfull => refused ?_,
    fun howner hjob hroom => ⟨fun i hi hfits hbad => refused ?_, fun hvalid => ?_⟩⟩
  · rw [if_pos howner]
  · rw [if_neg (not_not_intro howner), if_pos hjob]
  · rw [if_neg (not_not_intro howner), if_neg (not_not_intro hjob), if_pos hfull]
  · rw [if_neg (not_not_intro howner), if_neg (not_not_intro hjob), if_neg (by omega), StagingBody.nextPosition,
      firstBadRecord_imageRecords hi hfits hbad]
  · have hnone : b.loadRefusal s.su.job (Request.sender r) (imageRecords images n.toNat) = none := by
      rw [StagingBody.loadRefusal, if_neg (not_not_intro howner), if_neg (not_not_intro hjob),
        if_neg (by rw [imageRecords_length]; omega), StagingBody.nextPosition,
        (firstBadRecord_eq_none_iff ..).2 ((blockFits_imageRecords_iff ..).2 hvalid)]
    have hrecords : (imageRecords images n.toNat).map (·.1) = (List.range n.toNat).map fun i => recordAt images (6 * i) := by
      simp [imageRecords]
    have hcount : (b.records ++ (imageRecords images n.toNat).map (·.1)).length = b.records.length + n.toNat := by simp
    rw [State.cmdLoadRecords_of_no_refusal hn hb (by rw [hblock, hnone]), hblock, hparams, StagingBody.progress,
      StagingBody.nextPosition, StagingBody.append, hcount, hrecords]
    rfl

end Sys2Proof.Machine
end

section
/-! Waking, going to sleep and the resets (R46, R48, R49, R55, R56, R58, R180), and the commands and lines that lead to them. -/

namespace Sys2Proof.Machine

/-! ## States by their fields -/

theorem State.eq_of_fields {s t : State}
    (h : s.lines = t.lines ∧ s.power = t.power ∧ s.clock = t.clock ∧ s.clmA = t.clmA ∧ s.clmB = t.clmB ∧ s.rouse = t.rouse
      ∧ s.ru = t.ru ∧ s.ng = t.ng ∧ s.su = t.su ∧ s.cm = t.cm ∧ s.eqm = t.eqm ∧ s.discards = t.discards ∧ s.cu = t.cu
      ∧ s.free = t.free ∧ s.pending = t.pending) : s = t := by
  cases s
  cases t
  simpa using h

/-! ## Waking -/

@[simp] theorem State.enterDark_eqm (s : State) (e : End) : (s.enterDark e).eqm = s.eqm.abandonLinkControl (End.toPort e) := by
  simp [State.enterDark]

theorem State.wake_eqm (s : State) : s.wake.eqm = (s.eqm.abandonLinkControl .a).abandonLinkControl .b := by
  simp [State.wake, End.toPort]

theorem State.wake_noticeTimer (s : State) :
    s.wake.ng.timer = if s.wake.ng.settled then none else startMs s.cu.timing.noticeInterval := by
  have hcu : ((({ s with power := .active } : State).enterDark .a).enterDark .b).cu = s.cu := by simp
  rw [← hcu]
  rfl

/-- R56: what `State.wake` gives is the part woken. -/
theorem State.wake_woken (s : State) : Woken s s.wake := by
  have ha : s.wake.clmA = s.darkened .a s.clmA.lastChange := s.wake_clm .a
  have hb : s.wake.clmB = s.darkened .b s.clmB.lastChange := s.wake_clm .b
  refine ⟨State.eq_of_fields ?_, by simp, by simp, by simp, s.wake_judgedFrom, s.wake_noticeTimer⟩
  simp [ha, hb, State.wake_eqm]

theorem exec_wakeInAssertion {s : State} (hs : s.served) :
    exec .wakeInAssertion s = .next (if s.lines.wakeIn then s else
      if s.power = .dormant then ({ s with lines := { s.lines with wakeIn := true } } : State).wake
      else { s with lines := { s.lines with wakeIn := true } }) :=
  (show exec .wakeInAssertion s = execWakeInAssertion s from rfl).trans (by rw [execWakeInAssertion, State.runs_of_served hs])

theorem exec_wakeInNegation {s : State} (hs : s.served) :
    exec .wakeInNegation s = .next { s with lines := { s.lines with wakeIn := false } } :=
  State.runs_of_served hs fun s => { s with lines := { s.lines with wakeIn := false } }

/-- Settles O9: a change from negated to asserted wakes a DORMANT part. -/
theorem wakeInWakesDormantPart : Obligations.WakeInWakesDormantPart := by
  intro s hs
  refine ⟨exec_wakeInNegation hs, fun h => ?_, fun h ha => ?_, fun h hd => ⟨_, ?_, State.wake_woken _⟩⟩
  · rw [exec_wakeInAssertion hs, if_pos h]
  · rw [exec_wakeInAssertion hs, if_neg (by simp [h]), if_neg (by simp [ha])]
  · rw [exec_wakeInAssertion hs, if_neg (by simp [h]), if_pos hd]

/-! ## Going to sleep -/

/-- R46, R48 to R51: what `State.enterDormant` gives is the part gone to sleep. -/
theorem State.enterDormant_slept (s : State) : Slept s s.enterDormant := by
  have ha : s.enterDormant.clmA = .rest .listen none s.clmA.lastChange := s.enterDormant_clm .a
  have hb : s.enterDormant.clmB = .rest .listen none s.clmB.lastChange := s.enterDormant_clm .b
  refine ⟨State.eq_of_fields ?_, by simp, by simp, by simp, s.enterDormant_judgedFrom, rfl⟩
  simp [ha, hb, StagingUnit.powerOn, Eqm.emptied]

section
variable {s : State} {r : Request}

/-- SLEEP is taken on port C alone, so its sender is 0 (R171, R172). -/
theorem State.passes.replyTo_sleep (h : s.passes .sleep r) :
    Request.replyTo r 0x02 = { port := .c, sender := 0, seqTag := r.seqTag, requestTag := r.requestTag, code := 0x02 } := by
  have hport : r.port = .c := h.2.2.1 (by simp [portCCommands])
  simp only [Request.replyTo, Request.sender, hport]

end

/-- The response to a SLEEP takes one cell (R48, R152). -/
theorem State.sleepEntry_cells (s : State) (r : Request) (flag : Bool) : (s.sleepEntry r flag).cells = 1 := by
  simp [Entry.cells, Frame.length, State.sleepEntry, controlEntry, State.buildReply, State.originate, Word.bytes, Half.bytes]

/-- R155 for the response to a SLEEP: admitted while C0 of port C and the pool have room. -/
theorem State.admitCopy_sleepEntry (s : State) (r : Request) (flag : Bool) (q : Eqm) :
    q.admitCopy true true .c .c0 (s.sleepEntry r flag) =
      if 8 ≤ (q.queue .c .c0).length then (q, some .queueFull)
      else if q.freeCells < 1 then (q, some .poolExhausted)
      else ({ q.setQueue .c .c0 (q.queue .c .c0 ++ [s.sleepEntry r flag]) with freeCells := q.freeCells - 1 }, none) := by
  rw [Eqm.admitCopy_control _ _ _ _ rfl rfl, if_neg (by decide), State.sleepEntry_cells]

/-- Settles O35: `State.admitCopy_sleepEntry` says whether the response is admitted, and where it is not the part sleeps. -/
theorem sleepIsAnsweredThenTaken : Obligations.SleepIsAnsweredThenTaken := by
  intro r s hs hp hparams
  have hentry (flag : Bool) : s.sleepEntry r flag
      = { controlEntry .internal (s.buildReply { port := .c, sender := 0, seqTag := r.seqTag, requestTag := r.requestTag, code := 0x02 }
          .done []) with sleepResponse := flag } := by
    rw [← hp.replyTo_sleep]
    rfl
  rw [exec_of_passes rfl hs hp, State.runCommand, State.cmdSleep, if_neg (not_not_intro hparams)]
  simp only [← hentry]
  refine ⟨fun hpending => by rw [if_pos hpending], fun hpending hroom => ?_, fun hpending hroom => ?_⟩
  all_goals
    rw [if_neg (by simp [hpending])]
    have hadmit := State.admitCopy_sleepEntry s r true s.eqm
  · obtain ⟨hlen, hfree⟩ := hroom
    rw [if_neg (by omega), if_neg (by omega)] at hadmit
    have hadmits : s.admits .c .c0 (s.sleepEntry r true) = true := by
      simp [State.admits, State.portJoined, State.portMatched, hadmit]
    rw [if_pos hadmits]
    simp [State.offer, State.portJoined, State.portMatched, hadmit]
  · have hadmits : s.admits .c .c0 (s.sleepEntry r true) = false := by
      simp only [State.admits, State.portJoined, State.portMatched, hadmit]
      split
      · rfl
      · rw [if_pos (by omega)]
        rfl
    rw [if_neg (by simp [hadmits])]
    exact ⟨_, rfl, State.enterDormant_slept _⟩

/-! ## The resets -/

theorem State.settleIfReady_eq (s : State) (e : End) :
    s.settleIfReady e =
      s.setClm e (if (s.clm e).link = .dark ∧ s.presence e = true ∧ s.cu.loaded = true then (s.clm e).enterSettling s.cu.timing
        else s.clm e) := by
  unfold State.settleIfReady
  split
  · rfl
  · rw [State.setClm_clm]

/-- The test of R29 at both ends. -/
theorem State.settleIfReady_both (s : State) :
    (s.settleIfReady .a).settleIfReady .b =
      { s with
        clmA := (if s.clmA.link = .dark ∧ s.lines.presenceA = true ∧ s.cu.loaded = true then s.clmA.enterSettling s.cu.timing
                 else s.clmA)
        clmB := (if s.clmB.link = .dark ∧ s.lines.presenceB = true ∧ s.cu.loaded = true then s.clmB.enterSettling s.cu.timing
                 else s.clmB) } := by
  rw [State.settleIfReady_eq, State.settleIfReady_eq]
  rfl

/-- The starts that are due change nothing that a RESTART keeps. -/
theorem State.restarted_begun (s : State) : s.begun.restarted = s.restarted := by simp [State.restarted]

/-- Settles O5: the resets write the power-on values, and the links test R29 after a RESTART, whose identity is loaded. -/
theorem resetsRestorePowerOnValues : Obligations.ResetsRestorePowerOnValues := by
  intro s
  refine ⟨rfl, fun r hp hparams => ?_⟩
  have hloaded : s.cu.loaded = true := by
    obtain ⟨-, -, -, hidentity, -⟩ := hp
    simpa [State.passesIdentity, portCCommands, reads] using hidentity
  rw [exec_restart_of_passes hp hparams, State.restarted_begun, State.restarted, State.settleIfReady_both]
  simp only [hloaded, and_true]
  congr 2 <;> exact ite_congr (propext (and_iff_right rfl)) (fun _ => rfl) fun _ => rfl

end Sys2Proof.Machine
end

section
/-! The response to a request (R174, R175, R80), and the commands that set the part (R147, R150, R167, R177, R179, R187, R188). -/

namespace Sys2Proof.Machine

/-! ## Responses -/

/-- R174: the response to a request of port C goes to port C. -/
theorem State.answer_of_c (s : State) {t : ReplyTo} (h : t.port = .c) (o : ReplyCode) (d : List Byte) :
    s.answer t o d = s.offer .c .c0 (controlEntry .internal (s.buildReply t o d)) := by
  simp only [State.answer, h]

/-- R174: the response to a request of a coupler port is routed by its target. -/
theorem State.answer_of_coupler (s : State) {t : ReplyTo} (h : t.port ≠ .c) (o : ReplyCode) (d : List Byte) :
    s.answer t o d = s.routeResponse .internal (s.buildReply t o d) t.sender := by
  cases hp : t.port with
  | c => exact absurd hp h
  | a | b => simp only [State.answer, hp]

/-- R174: the target of a response is this car for a request of port C and the source of the request otherwise. -/
theorem State.replyTarget_replyTo (s : State) (r : Request) (code : Byte) :
    s.replyTarget (Request.replyTo r code) = if r.port = .c then s.ownId else r.source := by
  cases hp : r.port <;> simp [State.replyTarget, Request.replyTo, Request.sender, hp]

/-- R80: a response whose target is this car goes to port C; any other is flooded. -/
theorem State.routeResponse_internal (s : State) (f : Frame) (w : Word) :
    s.routeResponse .internal f w = if s.cu.isOwn w then s.offer .c .c0 (controlEntry .internal f) else s.flood .internal f := by
  simp [State.routeResponse]

/-- R78: a frame of the part itself, which has hops left, goes to each coupler port that is JOINED or FADING. -/
theorem State.floodPort_internal (s : State) {f : Frame} (hf : f.hop ≠ 0) (e : End) :
    s.floodPort .internal f e
      = if (s.clm e).link.isJoined then s.offer (End.toPort e) .c0 (controlEntry .internal f) else s := by
  rw [State.floodPort, if_neg (by simp : ¬ Ingress.internal = .port (End.toPort e)), if_neg hf]
  cases (s.clm e).link.isJoined <;> rfl

/-- The flooding of such a frame at both ends. -/
theorem State.flood_internal (s : State) {f : Frame} (hf : f.hop ≠ 0) :
    s.flood .internal f =
      let t := if s.clmA.link.isJoined then s.offer .a .c0 (controlEntry .internal f) else s
      if s.clmB.link.isJoined then t.offer .b .c0 (controlEntry .internal f) else t := by
  have hb : (s.floodPort .internal f .a).clm .b = s.clmB := by simp [State.clm]
  rw [State.flood, State.floodPort_internal _ hf .b, hb, State.floodPort_internal _ hf .a]
  rfl

theorem CommandUnit.isOwn_iff (cu : CommandUnit) (w : Word) : cu.isOwn w = true ↔ cu.loaded = true ∧ w = cu.identity := by
  simp [CommandUnit.isOwn]

/-- Settles O51: the response is `State.buildReply`, which goes to port C or is flooded. -/
theorem responsesAreBuiltAndRouted : Obligations.ResponsesAreBuiltAndRouted := by
  intro r s code o d own target x
  have hx : controlEntry .internal (s.buildReply (Request.replyTo r code) o d) = x := by
    rw [State.buildReply, State.replyTarget_replyTo]
    rfl
  refine ⟨fun h => if_pos h, fun h hp => ?_, fun h hp hown => ?_, fun h hp hown => ?_⟩
  all_goals rw [State.respond, if_neg h]
  · rw [State.answer_of_c s hp, hx]
  all_goals
    have hsender : (Request.replyTo r code).sender = r.source := Request.sender_of_coupler hp
    rw [State.answer_of_coupler s hp, State.routeResponse_internal, hsender]
  · rw [if_pos ((s.cu.isOwn_iff _).2 hown), hx]
  · have hhop : (s.buildReply (Request.replyTo r code) o d).hop ≠ 0 := by
      rw [show (s.buildReply (Request.replyTo r code) o d).hop = 31 from rfl]
      decide
    rw [if_neg (mt (s.cu.isOwn_iff _).1 hown), State.flood_internal s hhop, hx]


/-! ## SET-IDENTITY and RELEASE-WAKE -/

/-- R177: the parameter field of a SET-IDENTITY is an identity of a single car. -/
theorem setIdentity_params_iff (p : List Byte) :
    (p.length ≠ 4 ∨ validIdentity (wordAt p 0) = false) ↔ badParams .setIdentity p := by
  simp only [badParams, ← Bool.not_eq_true, validIdentity_iff, Classical.not_and_iff_not_or_not, Classical.not_not, ne_eq]

/-- Settles O34: an identity that is loaded is kept; else it is stored and the links test R29. -/
theorem setIdentityLoadsOnce : Obligations.SetIdentityLoadsOnce := by
  intro r s hs hp hparams
  rw [exec_of_passes rfl hs hp, State.runCommand, State.cmdSetIdentity, if_neg (mt (setIdentity_params_iff _).1 hparams)]
  refine ⟨fun hl => by rw [if_pos hl]; rfl, fun hl => ?_⟩
  rw [if_neg (by simp [hl])]
  simp only [State.settleIfReady_both, and_true]
  rfl

/-- A request runs its command once the starts that are due are made. -/
theorem exec_of_passes_begun {i : Instr} {c : Command} {r : Request} {s : State} (h : Instr.asRequest i = some (c, r))
    (hp : s.passes c r) : exec i s = .next (s.begun.runCommand c r) := by
  rw [exec_of_asRequest h, ← State.request_of_passes (State.passes_begun hp)]
  rfl

/-- Settles O36: the wake flag and the capture go together, and an empty capture reads as 72 bytes of 0. -/
theorem releaseWakeEmptiesCapture : Obligations.ReleaseWakeEmptiesCapture := by
  intro r s hs hp
  rw [exec_of_passes rfl hs hp, State.runCommand, State.cmdReleaseWake]
  refine ⟨fun hparams => by rw [if_pos hparams]; rfl, fun hparams => ?_⟩
  rw [if_neg (not_not_intro hparams)]
  have hflag : flagByte s.rouse.capture.isSome = if s.rouse.capture = none then 0x00 else 0x01 := by
    cases s.rouse.capture <;> rfl
  refine ⟨_, rfl, by rw [hflag]; rfl, by simp, by simp, by simp [State.wakeOutput], fun q hq => ⟨fun hcapture => ?_, fun hcapture => ?_⟩⟩
  · rw [exec_of_passes rfl hs hcapture, State.runCommand, State.cmdReadCapture_of_no_params hq]
  · rw [exec_of_passes_begun rfl hcapture, State.runCommand, State.cmdReadCapture_of_no_params hq]
    simp [captureResult_none]

/-! ## HOLD and RELEASE -/

theorem classSetOfParams_singleton {b : Byte} (h : b &&& 0xF1#8 = 0) :
    classSetOfParams [b] = some { c1 := b.getLsbD 1, c2 := b.getLsbD 2, c3 := b.getLsbD 3 } := by
  rw [classSetOfParams, classSetOfByte, if_pos h]

/-- Settles O47, by the class set of the parameter field. -/
theorem holdAndRelease : Obligations.HoldAndRelease := by
  intro r s b hs hparams hb
  have hset := classSetOfParams_singleton hb
  rw [← hparams] at hset
  refine ⟨fun hp => ?_, fun hp => ?_⟩
  · rw [exec_of_passes rfl hs hp, State.runCommand, State.cmdHold, hset]
    rfl
  · rw [exec_of_passes rfl hs hp, State.runCommand, State.cmdRelease, hset]
    rfl

/-! ## SET-TIMING -/

theorem Timing.get_set_self (t : Timing) (v : Nat) (x : Parameter) : (t.set v x).get x = v := by cases x <;> rfl

theorem Timing.get_set_of_ne (t : Timing) (v : Nat) {x y : Parameter} (h : y ≠ x) : (t.set v x).get y = t.get y := by
  cases x <;> cases y <;> simp [Timing.set, Timing.get] at h ⊢

/-- R22: what a new greet period does to a greet timer. -/
theorem Clm.restartGreet_eq (c : Clm) (v : Nat) :
    c.restartGreet v = if c.greet ≠ none ∧ c.greet ≠ some 0 then { c with greet := startMs v } else c := by
  obtain ⟨link, settle, greet, fade, rouse, answers, silences, rouses, heard, neighbour, candidate, last, slot⟩ := c
  match greet with
  | none => rfl
  | some 0 => rfl
  | some (n + 1) => simp [Clm.restartGreet, isDue]

/-- R188: one parameter set, with the greet timers a greet period restarts. -/
theorem State.setTiming_eq (s : State) (x : Parameter) (v : Nat) :
    s.setTiming x v =
      { s with
        cu := { s.cu with timing := s.cu.timing.set v x }
        clmA := if x = .greetPeriod ∧ s.clmA.greet ≠ none ∧ s.clmA.greet ≠ some 0 then { s.clmA with greet := startMs v } else s.clmA
        clmB := if x = .greetPeriod ∧ s.clmB.greet ≠ none ∧ s.clmB.greet ≠ some 0 then { s.clmB with greet := startMs v } else s.clmB } := by
  unfold State.setTiming
  by_cases hx : x = .greetPeriod
  · simp only [hx, if_true, true_and, Clm.restartGreet_eq]
  · simp only [hx, if_false, false_and]

theorem State.cmdSetTiming_of_inRange {s : State} {r : Request} {x : Parameter} (hlen : r.params.length = 3)
    (hx : parameterOfCode (byteAt r.params 0) = some x) (hlow : x.low ≤ (halfAt r.params 1).toNat)
    (hhigh : (halfAt r.params 1).toNat ≤ x.high) :
    s.cmdSetTiming r
      = (s.setTiming x (halfAt r.params 1).toNat).respond r 0x33 .done (natHalf (s.cu.timing.get x)) := by
  obtain ⟨a, hi, lo, hparams⟩ : ∃ a hi lo, r.params = [a, hi, lo] := by
    match r.params, hlen with
    | [a, hi, lo], _ => exact ⟨a, hi, lo, rfl⟩
  have hhalf : halfAt r.params 1 = halfAt [hi, lo] 0 := by rw [hparams]; rfl
  rw [hhalf] at hlow hhigh ⊢
  unfold State.cmdSetTiming
  simp only [hx]
  rw [hparams]
  dsimp only
  rw [if_pos ⟨hlow, hhigh⟩]
  rfl

/-- Settles O48. -/
theorem setTimingSetsOneParameter : Obligations.SetTimingSetsOneParameter := by
  intro r s x hs hp hlen hx v hlow hhigh
  refine ⟨?_, Timing.get_set_self _ _ _, fun y hy => Timing.get_set_of_ne _ _ hy⟩
  rw [exec_of_passes rfl hs hp, State.runCommand, State.cmdSetTiming_of_inRange hlen hx hlow hhigh, State.setTiming_eq]

end Sys2Proof.Machine
end

section
/-! The common tests in their order (R172), the parameter fields each command refuses, and RULE-WRITE and SET-CLASS (R147, R150). -/

namespace Sys2Proof.Machine

/-! ## The common tests -/

section
variable {s : State} {c : Command} {r : Request}

theorem Request.not_passesTarget_iff (r : Request) (c : Command) :
    ¬ Request.passesTarget r c ↔ r.target = targetAll ∧ c.acceptsAll = false := by
  simp only [Request.passesTarget, ← Command.acceptsAll_iff, Classical.not_imp, Bool.not_eq_true]

theorem Request.not_passesPort_iff (r : Request) (c : Command) :
    ¬ Request.passesPort r c ↔ c.portCOnly = true ∧ r.port ≠ .c := by
  simp only [Request.passesPort, ← Command.portCOnly_iff, Classical.not_imp, ne_eq]

theorem State.not_passesIdentity_iff (s : State) (c : Command) :
    ¬ s.passesIdentity c ↔ s.cu.loaded = false ∧ c.portCOnly = false ∧ c.isRead = false := by
  simp only [State.passesIdentity, ← Command.portCOnly_iff, ← Command.isRead_iff, not_or, Bool.not_eq_true]

theorem Request.not_passesSender_iff (r : Request) (c : Command) :
    ¬ Request.passesSender r c ↔
      (c.isGoverning = true ∨ c.isStaging = true) ∧ r.port ≠ .c ∧ validIdentity (Request.sender r) = false := by
  simp only [Request.passesSender, ← Command.isGoverning_iff, ← Command.isStaging_iff, Classical.not_imp, not_or]
  refine and_congr_right fun _ => and_congr_right fun hp => ?_
  rw [Request.sender_of_coupler hp, ← validIdentity_iff, Bool.not_eq_true]

theorem State.not_passesAuthority_iff (s : State) (c : Command) (r : Request) :
    ¬ s.passesAuthority c r ↔ c.isGoverning = true ∧ s.grants r = false := by
  simp only [State.passesAuthority, ← Command.isGoverning_iff, ← State.grants_iff, Classical.not_imp, Bool.not_eq_true]

/-- R172: the first of the tests 2 to 6 that fails refuses the request. -/
theorem State.commonRefusal_first (s : State) (c : Command) (r : Request) :
    (¬ Request.passesTarget r c → s.commonRefusal c r = some .targetNotPermitted)
    ∧ (Request.passesTarget r c → ¬ Request.passesPort r c → s.commonRefusal c r = some .portNotPermitted)
    ∧ (Request.passesTarget r c → Request.passesPort r c → ¬ s.passesIdentity c → s.commonRefusal c r = some .identityUnset)
    ∧ (Request.passesTarget r c → Request.passesPort r c → s.passesIdentity c → ¬ Request.passesSender r c →
        s.commonRefusal c r = some .notAuthorised)
    ∧ (Request.passesTarget r c → Request.passesPort r c → s.passesIdentity c → Request.passesSender r c →
        ¬ s.passesAuthority c r → s.commonRefusal c r = some .notAuthorised) := by
  have hpass2 (h : Request.passesTarget r c) := mt (Request.not_passesTarget_iff r c).2 (not_not_intro h)
  have hpass3 (h : Request.passesPort r c) := mt (Request.not_passesPort_iff r c).2 (not_not_intro h)
  have hpass4 (h : s.passesIdentity c) := mt (s.not_passesIdentity_iff c).2 (not_not_intro h)
  have hpass5 (h : Request.passesSender r c) := mt (Request.not_passesSender_iff r c).2 (not_not_intro h)
  unfold State.commonRefusal
  refine ⟨fun h2 => ?_, fun h2 h3 => ?_, fun h2 h3 h4 => ?_, fun h2 h3 h4 h5 => ?_, fun h2 h3 h4 h5 h6 => ?_⟩
  · rw [if_pos ((Request.not_passesTarget_iff r c).1 h2)]
  · rw [if_neg (hpass2 h2), if_pos ((Request.not_passesPort_iff r c).1 h3)]
  · rw [if_neg (hpass2 h2), if_neg (hpass3 h3), if_pos ((s.not_passesIdentity_iff c).1 h4)]
  · rw [if_neg (hpass2 h2), if_neg (hpass3 h3), if_neg (hpass4 h4), if_pos ((Request.not_passesSender_iff r c).1 h5)]
  · rw [if_neg (hpass2 h2), if_neg (hpass3 h3), if_neg (hpass4 h4), if_neg (hpass5 h5),
      if_pos ((s.not_passesAuthority_iff c r).1 h6)]

theorem commandOfCode_code (c : Command) : commandOfCode c.code = some c := by cases c <;> rfl

/-- R172 test 1. -/
theorem commandOfCode_eq_none {code : Byte} (h : code ∉ definedCodes) : commandOfCode code = none := by
  simp only [definedCodes, List.mem_cons, List.not_mem_nil, or_false, not_or] at h
  simp only [commandOfCode, h, if_false]

theorem State.handleCode_code (s : State) (c : Command) (r : Request) : s.handleCode c.code r = s.handle c r := by
  simp only [State.handleCode, commandOfCode_code]

theorem State.handle_of_refusal {o : ReplyCode} (h : s.commonRefusal c r = some o) : s.handle c r = s.refuse r c.code o [] := by
  simp only [State.handle, h]

theorem exec_unknownCommand {code : Byte} (hs : s.served) :
    exec (.unknownCommand code r) s
      = .next (if s.power = .active ∧ s.isTarget r.port r.target = true then s.handleCode code r else s) :=
  State.runs_of_served hs fun s => if s.power = .active ∧ s.isTarget r.port r.target = true then s.handleCode code r else s

theorem exec_request_of_hands {i : Instr} (hi : Instr.asRequest i = some (c, r)) (hs : s.served) (h : s.hands r) :
    exec i s = .next (s.handle c r) := by
  rw [exec_of_asRequest hi, State.runs_of_served hs, State.request, if_pos ((s.hands_iff r).1 h)]

theorem exec_request_of_not_hands {i : Instr} (hi : Instr.asRequest i = some (c, r)) (hs : s.served) (h : ¬ s.hands r) :
    exec i s = .next s := by
  rw [exec_of_asRequest hi, State.runs_of_served hs, State.request, if_neg (mt (s.hands_iff r).2 h)]

end

/-- Settles O49: `State.commonRefusal_first`, and what is handed over at all. -/
theorem commonTestsInOrder : Obligations.CommonTestsInOrder := by
  refine ⟨fun code r s hs h hcode => ?_, fun code r s hs h => ?_, fun code r s hs h => ?_, fun i c r s hs hi => ?_⟩
  · rw [exec_unknownCommand hs, if_pos ((s.hands_iff r).1 h), State.handleCode, commandOfCode_eq_none hcode]
    rfl
  · rw [exec_unknownCommand hs, if_pos ((s.hands_iff r).1 h)]
  · rw [exec_unknownCommand hs, if_neg (mt (s.hands_iff r).2 h)]
  · refine ⟨exec_request_of_not_hands hi hs, fun h => by rw [exec_request_of_hands hi hs h, State.handleCode_code], fun h => ?_⟩
    have refused {o : ReplyCode} (ho : s.commonRefusal c r = some o) :
        exec i s = .next (({ s with cu := { s.cu with refusals := saturate s.cu.refusals } }).respond r c.code o []) := by
      rw [exec_request_of_hands hi hs h, State.handle_of_refusal ho]
      rfl
    obtain ⟨htarget, hport, hidentity, hsender, hauthority⟩ := s.commonRefusal_first c r
    exact ⟨fun h2 => refused (htarget h2), fun h2 h3 => refused (hport h2 h3), fun h2 h3 h4 => refused (hidentity h2 h3 h4),
      fun h2 h3 h4 h5 => refused (hsender h2 h3 h4 h5), fun h2 h3 h4 h5 h6 => refused (hauthority h2 h3 h4 h5 h6)⟩

/-! ## The parameter fields a command refuses -/

theorem modeOfParams_eq_none {p : List Byte} (h : badParams .loadBegin p) : modeOfParams p = none := by
  obtain ⟨h1, h2⟩ := h
  match p with
  | [] | _ :: _ :: _ => rfl
  | [b] =>
    have hb1 : b ≠ 0x01 := fun hb => h1 (by rw [hb])
    have hb2 : b ≠ 0x02 := fun hb => h2 (by rw [hb])
    rw [modeOfParams, if_neg hb1, if_neg hb2]

theorem blockCount_eq_none {p : List Byte} (h : badParams .loadRecords p) : blockCount p = none := by
  match p with
  | [] => rfl
  | b :: l =>
    rw [blockCount, if_neg]
    rintro ⟨hlow, hhigh, hlen⟩
    exact h ⟨b, l, rfl, hlow, hhigh, hlen⟩

theorem classSetOfParams_eq_none {p : List Byte} (h : badParams .hold p) : classSetOfParams p = none := by
  match p with
  | [] | _ :: _ :: _ => rfl
  | [b] =>
    rw [classSetOfParams, classSetOfByte, if_neg]
    exact fun hb => h ⟨b, rfl, hb⟩

theorem byteAt_drop (l : List Byte) (n i : Nat) : byteAt (l.drop n) i = byteAt l (n + i) := by
  rw [byteAt, byteAt, List.getD_eq_getElem?_getD, List.getD_eq_getElem?_getD, List.getElem?_drop]

theorem halfAt_drop (l : List Byte) (n i : Nat) : halfAt (l.drop n) i = halfAt l (n + i) := by
  rw [halfAt, halfAt, byteAt_drop, byteAt_drop, Nat.add_assoc]

theorem wordAt_drop (l : List Byte) (n i : Nat) : wordAt (l.drop n) i = wordAt l (n + i) := by
  rw [wordAt, wordAt, halfAt_drop, halfAt_drop, Nat.add_assoc]

/-- The class field of an outcome byte takes the values 0 to 3. -/
theorem classField_cases (o : Byte) :
    o &&& 0x03#8 = 0x00 ∨ o &&& 0x03#8 = 0x01 ∨ o &&& 0x03#8 = 0x02 ∨ o &&& 0x03#8 = 0x03 := by
  have hlt : (o &&& 0x03#8).toNat < 4 := by
    rw [BitVec.toNat_and]
    exact Nat.and_lt_two_pow (n := 2) _ (by decide)
  simp only [← BitVec.toNat_inj]
  generalize (o &&& 0x03#8).toNat = n at hlt
  simp
  omega

/-- R17, R147: the images of a rule that are refused. -/
theorem ruleOfImage_eq_none {l : List Byte} (h : byteAt l 3 &&& 0x03#8 = 0 ∨ (halfAt l 4).toNat < 20 ∨ 1020 < (halfAt l 4).toNat) :
    ruleOfImage l = none := by
  simp only [ruleOfImage]
  split
  · rfl
  · rename_i c hc
    rcases h with h | h
    · rw [h] at hc
      cases hc
    · rw [if_pos (by simpa using h)]

section
variable {s : State} {r : Request}

theorem State.cmdReadRoster_of_badParams (h : badParams .readRoster r.params) :
    s.cmdReadRoster r = s.refuse r 0x11 .badParameter [] := by
  unfold State.cmdReadRoster
  split
  · rename_i sel first count hparams
    split
    · rfl
    · rename_i g rs hsel
      have hselector : sel = 0x01 ∨ sel = 0x02 ∨ sel = 0x03 := by
        unfold State.selectRoster at hsel
        refine Classical.byContradiction fun hn => ?_
        simp only [not_or] at hn
        simp only [hn, if_false, reduceCtorEq] at hsel
      rw [if_neg]
      · rfl
      · simp only [inRosterRange, Bool.and_eq_true, decide_eq_true_eq]
        rintro ⟨⟨h1, h2⟩, h3, h4⟩
        exact h ⟨sel, first, count, hparams, hselector, h1, h2, h3, h4⟩
  · rfl

theorem State.cmdRuleRead_of_badParams (h : badParams .ruleRead r.params) (hr : s.cm.rules.length = 16) :
    s.cmdRuleRead r = s.refuse r 0x14 .badParameter [] := by
  unfold State.cmdRuleRead
  split
  · rename_i i hparams
    have hi : ¬ i.toNat ≤ 15 := fun hi => h ⟨i, hparams, hi⟩
    rw [List.getElem?_eq_none (by omega)]
    rfl
  · rfl

theorem State.cmdRuleWrite_of_badParams (h : badParams .ruleWrite r.params) :
    s.cmdRuleWrite r = s.refuse r 0x30 .badParameter [] := by
  unfold State.cmdRuleWrite
  split
  · rfl
  · rename_i hshape
    obtain ⟨hlen, hindex⟩ := not_or.1 hshape
    have himage : ruleOfImage (r.params.drop 1) = none := by
      refine ruleOfImage_eq_none ?_
      rw [byteAt_drop, halfAt_drop]
      rcases h with h | h | h | h
      · exact absurd h hlen
      · omega
      · exact .inl h
      · exact .inr h
    rw [himage]
    rfl

theorem State.cmdSetTiming_of_badParams (h : badParams .setTiming r.params) :
    s.cmdSetTiming r = s.refuse r 0x33 .badParameter [] := by
  unfold State.cmdSetTiming
  split
  · rename_i hi lo x hparams hx
    rw [if_neg]
    · rfl
    · rintro ⟨hlow, hhigh⟩
      have hhalf : halfAt r.params 1 = halfAt [hi, lo] 0 := by rw [hparams]; rfl
      rcases h with h | h
      · exact h (by rw [hparams]; rfl)
      · have := h x hx
        rw [hhalf] at this
        omega
  · rfl

theorem State.cmdSetClass_of_badParams (h : badParams .setClass r.params) :
    s.cmdSetClass r = s.refuse r 0x34 .badParameter [] := by
  unfold State.cmdSetClass
  split
  · rename_i c p hparams
    split
    · rename_i k q hk hq
      refine absurd ⟨c, p, hparams, ?_, ?_⟩ h
      · refine Classical.byContradiction fun hn => ?_
        simp only [not_or] at hn
        simp only [dataClassOfCode, hn, if_false, reduceCtorEq] at hk
      · refine Classical.byContradiction fun hn => ?_
        simp only [not_or] at hn
        simp only [policyOfCode, hn, if_false, reduceCtorEq] at hq
    · rfl
  · rfl

theorem State.cmdEnact_of_badParams (h : badParams .enact r.params) : s.cmdEnact r = s.refuse r 0x24 .badParameter [] := by
  have hrefusal : s.enactRefusal r = some (.badParameter, []) := if_pos h
  simp only [State.cmdEnact, hrefusal]
  rfl

/-- A command refuses a bad parameter field before anything else. -/
theorem State.runCommand_of_badParams {c : Command} (h : badParams c r.params) (hr : s.cm.rules.length = 16) :
    s.runCommand c r = s.refuse r c.code .badParameter [] := by
  cases c with
  | setIdentity => exact if_pos ((setIdentity_params_iff _).2 h)
  | sleep | releaseWake | restart | discard | confirm => exact if_pos h
  | readCapture | readOvertaken => exact if_neg h
  | readState => exact (if_neg h.1).trans (if_neg h.2)
  | readRoster => exact State.cmdReadRoster_of_badParams h
  | ruleRead => exact State.cmdRuleRead_of_badParams h hr
  | loadBegin => simp only [State.runCommand, State.cmdLoadBegin, modeOfParams_eq_none h]
  | loadRecords => simp only [State.runCommand, State.cmdLoadRecords, blockCount_eq_none h]
  | enact => exact State.cmdEnact_of_badParams h
  | ruleWrite => exact State.cmdRuleWrite_of_badParams h
  | hold => simp only [State.runCommand, State.cmdHold, classSetOfParams_eq_none h]
  | release => simp only [State.runCommand, State.cmdRelease, classSetOfParams_eq_none (p := r.params) h]
  | setTiming => exact State.cmdSetTiming_of_badParams h
  | setClass => exact State.cmdSetClass_of_badParams h

end

/-- Settles O50, by `State.runCommand_of_badParams`. -/
theorem badParametersAreRefused : Obligations.BadParametersAreRefused := by
  intro i c r s hs hi hp hbad hr
  rw [exec_of_passes hi hs hp, State.runCommand_of_badParams hbad hr]
  rfl

/-! ## RULE-WRITE and SET-CLASS -/

/-- The rule of the parameter field of a RULE-WRITE (R147). -/
def writtenRule (p : List Byte) : Rule :=
  { enabled := (byteAt p 1).getLsbD 0
    kindProcess := (byteAt p 2).getLsbD 0, kindMessage := (byteAt p 2).getLsbD 1, kindBulk := (byteAt p 2).getLsbD 2
    portA := (byteAt p 3).getLsbD 0, portB := (byteAt p 3).getLsbD 1, portC := (byteAt p 3).getLsbD 2
    minLength := (halfAt p 5).toNat, mask := wordAt p 7, values := p.drop 11
    cls := if byteAt p 4 &&& 0x03#8 = 0x01 then .c1 else if byteAt p 4 &&& 0x03#8 = 0x02 then .c2 else .c3
    cyclic := (byteAt p 4).getLsbD 2, localCopy := (byteAt p 4).getLsbD 3, discard := (byteAt p 4).getLsbD 4 }

theorem ruleOfImage_written {p : List Byte} (h : ¬ badParams .ruleWrite p) : ruleOfImage (p.drop 1) = some (writtenRule p) := by
  simp only [badParams, not_or, Classical.not_not, Nat.not_lt] at h
  obtain ⟨hlen, -, hclass, hlow, hhigh⟩ := h
  have hvalues : ((p.drop 1).drop 10).take 32 = p.drop 11 := by
    rw [List.drop_drop, List.take_of_length_le]
    simp [hlen]
  have hcls : dataClassOfCode (byteAt p 4 &&& 0x03#8)
      = some (if byteAt p 4 &&& 0x03#8 = 0x01 then .c1 else if byteAt p 4 &&& 0x03#8 = 0x02 then .c2 else .c3) := by
    rcases classField_cases (byteAt p 4) with h | h | h | h
    · exact absurd h hclass
    all_goals rw [h]; rfl
  simp only [ruleOfImage, byteAt_drop, halfAt_drop, wordAt_drop, hvalues, hcls]
  rw [if_neg (by simpa using ⟨hlow, hhigh⟩)]
  rfl

theorem State.cmdRuleWrite_of_goodParams {s : State} {r : Request} (h : ¬ badParams .ruleWrite r.params) :
    s.cmdRuleWrite r
      = ({ s with cm := { s.cm with rules := s.cm.rules.set (byteAt r.params 0).toNat (writtenRule r.params) } }).respond r 0x30 .done
          [byteAt r.params 0] := by
  have hshape : ¬ (r.params.length ≠ 43 ∨ 16 ≤ (byteAt r.params 0).toNat) := by
    simp only [badParams, not_or, Classical.not_not, Nat.not_lt] at h ⊢
    omega
  rw [State.cmdRuleWrite, if_neg hshape, ruleOfImage_written h]
  rfl

theorem dataClassOfCode_code (c : DataClass) : dataClassOfCode c.code = some c := by cases c <;> rfl

theorem policyOfCode_code (q : Policy) : policyOfCode q.code = some q := by cases q <;> rfl

/-- Settles O46: the image of the parameter field is `writtenRule`, and the codes of a SET-CLASS are read back. -/
theorem ruleWriteAndSetClass : Obligations.RuleWriteAndSetClass := by
  refine ⟨fun r s hs hp hparams => ?_, fun r s c q hs hp hparams => ?_⟩
  · rw [exec_of_passes rfl hs hp, State.runCommand, State.cmdRuleWrite_of_goodParams hparams]
    rfl
  · rw [exec_of_passes rfl hs hp, State.runCommand, State.cmdSetClass, hparams]
    simp only [dataClassOfCode_code, policyOfCode_code]
    cases c <;> rfl

end Sys2Proof.Machine
end

section
/-! The events of the coupler link monitors: presence (R20, R29, R30, R39, R40), the timers (R30, R31, R33, R34, R38, R40, R41), and the
receipt of a GREET (R26, R32, R35, R37, R41). One lemma says what each event gives in each link state. -/

namespace Sys2Proof.Machine

/-- Entry to DARK as one state (R27, R29). -/
theorem State.enterDark_eq (s : State) (e : End) :
    s.enterDark e =
      { s.setClm e (s.darkened e (s.clm e).lastChange) with eqm := s.eqm.abandonLinkControl (End.toPort e) } := by
  have hself := s.enterDark_clm e e
  have hother := s.enterDark_clm e (End.other e)
  cases e
  all_goals
    simp only [if_true, End.other, reduceCtorEq, if_false, State.clm] at hself hother
    refine State.eq_of_fields ?_
    simp [hself, hother, State.setClm, State.clm]

/-! ## Presence -/

section
variable {s : State} {e : End}

theorem exec_presenceAssertion (hs : s.served) :
    exec (.presenceAssertion e) s = .next (if s.presence e then s else (s.setPresence e true).presenceAsserted e) :=
  State.runs_of_served hs fun s => if s.presence e then s else (s.setPresence e true).presenceAsserted e

theorem exec_presenceNegation_of_served (hs : s.served) :
    exec (.presenceNegation e) s = .next (if s.presence e then (s.setPresence e false).presenceNegated e else s) :=
  State.runs_of_served hs fun s => if s.presence e then (s.setPresence e false).presenceNegated e else s

/-- R29: DARK with presence asserted waits for the identity alone. -/
theorem State.presenceAsserted_of_dark (hl : (s.clm e).link = .dark) :
    (s.setPresence e true).presenceAsserted e
      = if s.cu.loaded then (s.setPresence e true).setClm e { s.clm e with link := .settling, settle := startMs s.cu.timing.settleTime }
        else s.setPresence e true := by
  have hready : (s.setPresence e true).presenceAsserted e = (s.setPresence e true).settleIfReady e := by
    simp [State.presenceAsserted, hl]
  rw [hready, State.settleIfReady]
  simp [hl, Clm.enterSettling]

/-- R20: in every other link state but FADING the level alone changes. -/
theorem State.presenceAsserted_of_ne (hd : (s.clm e).link ≠ .dark) (hf : (s.clm e).link ≠ .fading) :
    s.presenceAsserted e = s := by
  cases hl : (s.clm e).link with
  | dark => exact absurd hl hd
  | fading => exact absurd hl hf
  | settling | greeting | mute | joined | listen => simp only [State.presenceAsserted, hl]

/-- R30, R33, R35: a link that is not yet up goes to DARK. -/
theorem State.presenceNegated_of_rising (hl : (s.clm e).link = .settling ∨ (s.clm e).link = .greeting ∨ (s.clm e).link = .mute) :
    s.presenceNegated e = s.enterDark e := by
  rcases hl with hl | hl | hl <;> simp only [State.presenceNegated, hl]

theorem State.presenceNegated_of_down (hl : (s.clm e).link = .dark ∨ (s.clm e).link = .fading ∨ (s.clm e).link = .listen) :
    s.presenceNegated e = s := by
  rcases hl with hl | hl | hl <;> simp only [State.presenceNegated, hl]

end

/-- Settles O7: what each link state does at a change of its PRESENCE input. -/
theorem presenceChangesMoveLinks : Obligations.PresenceChangesMoveLinks := by
  intro e s hs
  rw [exec_presenceAssertion hs, exec_presenceNegation_of_served hs]
  refine ⟨fun hp => by rw [if_pos hp], fun hp hl => ?_, fun hp hl => ?_, fun hp hd hf => ?_, fun hp => by rw [if_neg (by simp [hp])],
    fun hp hl => ?_, fun hp hl => ?_⟩
  · rw [if_neg (by simp [hp]), State.presenceAsserted_of_dark hl]
  · rw [if_neg (by simp [hp])]
    simp [State.presenceAsserted, hl]
  · rw [if_neg (by simp [hp]), State.presenceAsserted_of_ne (by simpa using hd) (by simpa using hf)]
  · have hdark : (s.setPresence e false).darkened e (s.clm e).lastChange = .rest .dark none (s.clm e).lastChange := by
      simp [State.darkened]
    rw [if_pos hp, State.presenceNegated_of_rising (by simpa using hl), State.enterDark_eq, State.setPresence_clm, hdark,
      State.setPresence_eqm]
  · rw [if_pos hp, State.presenceNegated_of_down (by simpa using hl)]

/-! ## The settle, fade and rouse timers -/

section
variable {s : State} {e : End}

theorem exec_settleExpiry (hs : s.served) : exec (.settleExpiry e) s = .next (if isDue (s.clm e).settle then s.settleExpired e else s) :=
  State.runs_of_served hs fun s => if isDue (s.clm e).settle then s.settleExpired e else s

theorem exec_fadeExpiry (hs : s.served) : exec (.fadeExpiry e) s = .next (if isDue (s.clm e).fade then s.fadeExpired e else s) :=
  State.runs_of_served hs fun s => if isDue (s.clm e).fade then s.fadeExpired e else s

theorem exec_rouseExpiry (hs : s.served) : exec (.rouseExpiry e) s = .next (if isDue (s.clm e).rouse then s.rouseExpired e else s) :=
  State.runs_of_served hs fun s => if isDue (s.clm e).rouse then s.rouseExpired e else s

theorem exec_rouseBurstReached (hs : s.served) :
    exec (.rouseBurstReached e) s = .next (if s.rouseBurstDue e then s.rouseExpired e else s) :=
  State.runs_of_served hs fun s => if s.rouseBurstDue e then s.rouseExpired e else s

/-- R34: a burst is reached at a due expiry in MUTE that raises the count to it. -/
theorem State.rouseBurstDue_iff (s : State) (e : End) :
    s.rouseBurstDue e = true ↔
      (s.clm e).rouse = some 0 ∧ (s.clm e).link = .mute ∧ s.cu.timing.rouseBurst ≤ (s.clm e).rouseCount + 1 := by
  simp [State.rouseBurstDue, isDue_iff, and_assoc]

theorem State.settleExpired_of_settling (hl : (s.clm e).link = .settling) :
    s.settleExpired e = s.setClm e ((s.clm e).enterGreeting s.cu.timing none) := by rw [State.settleExpired, if_pos hl]

theorem State.fadeExpired_of_fading (hl : (s.clm e).link = .fading) : s.fadeExpired e = s.lose e .uncoupled none := by
  rw [State.fadeExpired, if_pos hl, State.lose, if_pos hl]

theorem State.rouseExpired_of_mute (hl : (s.clm e).link = .mute) :
    s.rouseExpired e = s.setClm e ((s.clm e).rouseExpired s.cu.timing) := by rw [State.rouseExpired, if_pos hl]

end

/-- Settles O24. -/
theorem settleFadeAndRouseExpiries : Obligations.SettleFadeAndRouseExpiries := by
  intro e s hs c roused
  have hroused : c.link = .mute → s.rouseExpired e = roused := fun hl => State.rouseExpired_of_mute hl
  rw [exec_settleExpiry hs, exec_fadeExpiry hs, exec_rouseExpiry hs, exec_rouseBurstReached hs]
  refine ⟨fun h => ?_, fun h hl => ?_, fun h => ?_, fun h hl => ?_, fun h => ⟨?_, ?_⟩, fun h hl => ?_, fun h hl hb => ?_, fun h => ?_⟩
  · rw [if_neg (mt (isDue_iff _).1 h)]
  · rw [if_pos ((isDue_iff _).2 h), State.settleExpired_of_settling hl]
    rfl
  · rw [if_neg (mt (isDue_iff _).1 h)]
  · rw [if_pos ((isDue_iff _).2 h), State.fadeExpired_of_fading hl]
  · rw [if_neg (mt (isDue_iff _).1 h)]
  · rw [if_neg fun hb => h ((s.rouseBurstDue_iff e).1 hb).1]
  · rw [if_pos ((isDue_iff _).2 h), hroused hl]
  · rw [if_pos ((s.rouseBurstDue_iff e).2 ⟨h, hl, hb⟩), hroused hl]
  · rw [if_neg fun hb => absurd ((s.rouseBurstDue_iff e).1 hb).2.2 (Nat.not_le.2 h)]

/-! ## The greet timer -/

section
variable {s : State} {e : End}

theorem exec_greetExpiry (hs : s.served) : exec (.greetExpiry e) s = .next (if isDue (s.clm e).greet then s.greetExpired e else s) :=
  State.runs_of_served hs fun s => if isDue (s.clm e).greet then s.greetExpired e else s

theorem exec_answerLimitReached (hs : s.served) :
    exec (.answerLimitReached e) s = .next (if s.answerLimitDue e then s.greetExpired e else s) :=
  State.runs_of_served hs fun s => if s.answerLimitDue e then s.greetExpired e else s

theorem exec_silenceLimitReached (hs : s.served) :
    exec (.silenceLimitReached e) s = .next (if s.silenceLimitDue e then s.greetExpired e else s) :=
  State.runs_of_served hs fun s => if s.silenceLimitDue e then s.greetExpired e else s

theorem State.answerLimitDue_iff (s : State) (e : End) :
    s.answerLimitDue e = true ↔
      (s.clm e).greet = some 0 ∧ (s.clm e).link = .greeting ∧ s.cu.timing.answerLimit ≤ (s.clm e).answerCount + 1 := by
  simp [State.answerLimitDue, isDue_iff, and_assoc]

theorem State.silenceLimitDue_iff (s : State) (e : End) :
    s.silenceLimitDue e = true ↔
      (s.clm e).greet = some 0 ∧ (s.clm e).link.isJoined = true ∧ s.cu.timing.silenceLimit ≤ (s.clm e).silenceAfter := by
  simp [State.silenceLimitDue, isDue_iff, and_assoc]

/-- The monitor with its periodic greet timer started again (R21). -/
def State.regreeted (s : State) (e : End) : Clm := { s.clm e with greet := startMs s.cu.timing.greetPeriod }

theorem State.greetExpired_of_greeting (hl : (s.clm e).link = .greeting) :
    s.greetExpired e = s.setClm e ((s.regreeted e).greetInGreeting s.cu.timing) := by
  simp [State.greetExpired, hl, State.regreeted]

theorem State.greetExpired_of_mute (hl : (s.clm e).link = .mute) : s.greetExpired e = s.setClm e (s.regreeted e).placeGreet := by
  simp [State.greetExpired, hl, State.regreeted]

theorem State.greetExpired_of_joined (hl : (s.clm e).link.isJoined = true) :
    s.greetExpired e = (s.setClm e (s.regreeted e)).greetInJoined e := by
  cases hl' : (s.clm e).link <;> simp [hl', LinkState.isJoined] at hl <;> simp [State.greetExpired, hl', State.regreeted]

/-- R38: the silence count decides between the loss and a GREET. -/
theorem State.greetInJoined_regreeted (s : State) (e : End) :
    (s.setClm e (s.regreeted e)).greetInJoined e =
      if s.cu.timing.silenceLimit ≤ (s.clm e).silenceAfter then
        (s.setClm e { s.regreeted e with silenceCount := (s.clm e).silenceAfter, greetHeard := false }).lose e .silent none
      else s.setClm e { s.regreeted e with silenceCount := (s.clm e).silenceAfter, greetHeard := false }.placeGreet := by
  have hsilence : (s.regreeted e).silenceAfter = (s.clm e).silenceAfter := rfl
  simp only [State.greetInJoined, State.clm_setClm_self, State.setClm_cu, State.setClm_setClm, hsilence]

end

/-- Settles O25. -/
theorem greetExpiries : Obligations.GreetExpiries := by
  intro e s hs c answered silence heard silent
  have hanswered : c.link = .greeting → s.greetExpired e = answered := fun hl => by
    rw [State.greetExpired_of_greeting hl]
    rfl
  have hjoined (hl : c.link.isJoined = true) : s.greetExpired e =
      if s.cu.timing.silenceLimit ≤ silence then silent else s.setClm e { heard with slot := { c.slot with greet := true } } :=
    (State.greetExpired_of_joined hl).trans (s.greetInJoined_regreeted e)
  rw [exec_greetExpiry hs, exec_answerLimitReached hs, exec_silenceLimitReached hs]
  refine ⟨fun hl h => ?_, fun hl h hlimit => ?_, fun hl h => ?_, fun hl h hs => ?_, fun hl h hs => ⟨?_, ?_⟩,
    fun h => ⟨?_, ?_, ?_⟩, fun h => ?_, fun h => ?_⟩
  · rw [if_pos ((isDue_iff _).2 h), hanswered hl]
  · rw [if_pos ((s.answerLimitDue_iff e).2 ⟨h, hl, hlimit⟩), hanswered hl]
  · rw [if_pos ((isDue_iff _).2 h), State.greetExpired_of_mute hl]
    rfl
  · rw [if_pos ((isDue_iff _).2 h), hjoined hl, if_neg (Nat.not_le.2 hs)]
  · rw [if_pos ((isDue_iff _).2 h), hjoined hl, if_pos hs]
  · rw [if_pos ((s.silenceLimitDue_iff e).2 ⟨h, hl, hs⟩), hjoined hl, if_pos hs]
  · rw [if_neg (mt (isDue_iff _).1 h)]
  · rw [if_neg fun hd => h ((s.answerLimitDue_iff e).1 hd).1]
  · rw [if_neg fun hd => h ((s.silenceLimitDue_iff e).1 hd).1]
  · rw [if_neg]
    intro hd
    obtain ⟨-, hl, hlimit⟩ := (s.answerLimitDue_iff e).1 hd
    exact h.elim (fun hn => hn hl) fun hlt => absurd hlimit (Nat.not_le.2 hlt)
  · rw [if_neg]
    intro hd
    obtain ⟨-, hl, hlimit⟩ := (s.silenceLimitDue_iff e).1 hd
    rcases h with hn | hlt
    · exact absurd (hl.symm.trans hn) (by decide)
    · exact absurd hlimit (Nat.not_le.2 hlt)

end Sys2Proof.Machine
end

section
/-! Arrivals (R9, R11 to R13, R26, R52, R53, R72 to R74): what the checks refuse, the rouse filter of a DORMANT part, and the stages of an
arrival in ACTIVE up to path choice. -/

namespace Sys2Proof.Machine

/-! ## The checks of R9 -/

theorem kindOfCode_eq_none_iff (b : Byte) :
    kindOfCode b = none ↔ b ∉ [0x01#8, 0x02, 0x03, 0x08, 0x09, 0x0A, 0x0C, 0x0D] := by
  simp only [List.mem_cons, List.not_mem_nil, or_false]
  constructor
  · intro h hmem
    rcases hmem with rfl | rfl | rfl | rfl | rfl | rfl | rfl | rfl <;> cases h
  · intro h
    obtain ⟨h1, h⟩ := not_or.1 h
    have h1' : ¬ b = 0x01 := h1
    simp only [not_or] at h
    simp only [kindOfCode, h1', h, if_false]

/-- A sequence of bytes that fails a test of R9 gives no frame. -/
theorem parseFrame_eq_none_of_failsChecks {bytes : List Byte} (h : FailsChecks bytes) : parseFrame bytes = none := by
  unfold parseFrame
  split
  · rfl
  · rename_i hlen
    split
    · rfl
    · rename_i hcheck
      simp only [lengthsAgree, Bool.not_eq_true', Bool.not_eq_false, Bool.and_eq_true, decide_eq_true_eq, beq_iff_eq] at hlen
      simp only [checkAgrees, Bool.not_eq_true', Bool.not_eq_false, beq_iff_eq] at hcheck
      obtain ⟨⟨hlow, hhigh⟩, hfield⟩ := hlen
      have hkind : byteAt bytes 0 ∉ [0x01#8, 0x02, 0x03, 0x08, 0x09, 0x0A, 0x0C, 0x0D] := by
        rcases h with h | h | h | h | h
        · omega
        · omega
        · exact absurd hfield h
        · exact absurd hcheck h
        · exact h
      rw [(kindOfCode_eq_none_iff _).2 hkind]

/-! ## The rows -/

section
variable {s : State} {e : End} {bytes : List Byte} {f : Frame}

theorem exec_arrivalOnCouplerPort_of_active (hs : s.served) (ha : s.power = .active) :
    exec (.arrivalOnCouplerPort e bytes) s = .next (s.intakeCoupler e bytes) := by
  have hrun : exec (.arrivalOnCouplerPort e bytes) s
      = .next (match s.power with | .active => s.intakeCoupler e bytes | .dormant => s.rouseFilter e bytes) :=
    State.runs_of_served hs fun s => match s.power with | .active => s.intakeCoupler e bytes | .dormant => s.rouseFilter e bytes
  simpa only [ha] using hrun

theorem exec_arrivalOnPortC_of_active (hs : s.served) (ha : s.power = .active) :
    exec (.arrivalOnPortC bytes) s = .next (s.intakeC bytes) := by
  have hrun : exec (.arrivalOnPortC bytes) s = .next (match s.power with | .active => s.intakeC bytes | .dormant => s) :=
    State.runs_of_served hs fun s => match s.power with | .active => s.intakeC bytes | .dormant => s
  simpa only [ha] using hrun

theorem State.intakeCoupler_of_frame (hf : parseFrame bytes = some f) : s.intakeCoupler e bytes = s.dispatch e f := by
  simp only [State.intakeCoupler, hf]

theorem State.intakeCoupler_of_fault (hf : parseFrame bytes = none) :
    s.intakeCoupler e bytes = s.take [faultOfBytes (.port (End.toPort e)) bytes] := by
  simp only [State.intakeCoupler, hf]

theorem State.intakeC_of_fault (hf : parseFrame bytes = none) : s.intakeC bytes = s.take [faultOfBytes (.port .c) bytes] := by
  simp only [State.intakeC, hf]

/-- R2, R13: what port C may not bring is counted. -/
theorem State.intakeC_of_refused (hf : parseFrame bytes = some f) (h : f.kind.isLink = true ∨ f.payload.length < f.kind.fixedBody) :
    s.intakeC bytes = s.take [f.discard (.port .c) .frameFault] := by
  simp only [State.intakeC, hf]
  rw [if_pos (by simpa using h)]

/-- R13: a short body is counted. -/
theorem State.dispatch_of_short (h : f.payload.length < f.kind.fixedBody) :
    s.dispatch e f = s.take [f.discard (.port (End.toPort e)) .frameFault] := by
  cases hk : f.kind with
  | greet =>
    rw [hk] at h
    simp only [State.dispatch, hk, State.greetReceipt, if_pos h]
  | mgmtReq | mgmtRsp | notice =>
    rw [hk] at h
    simp only [State.dispatch, hk, if_pos h]
  | process | message | bulk | rouse => simp [hk, Kind.fixedBody] at h

end

/-- Settles O11: a fault has its bytes counted, a short body and a link kind on port C its frame. -/
theorem faultyArrivalsAreCounted : Obligations.FaultyArrivalsAreCounted := by
  intro e bytes s hs ha
  rw [exec_arrivalOnCouplerPort_of_active hs ha, exec_arrivalOnPortC_of_active hs ha]
  refine ⟨fun h => ?_, fun f hf => ⟨fun h => ?_, fun h => ?_, fun h => ?_⟩⟩
  · have hnone := parseFrame_eq_none_of_failsChecks h
    rw [State.intakeCoupler_of_fault hnone, State.intakeC_of_fault hnone]
    exact ⟨rfl, rfl⟩
  · have hshort : f.payload.length < f.kind.fixedBody := by
      rcases h with ⟨hk, h⟩ | ⟨hk, h⟩ | ⟨hk, h⟩ | ⟨hk, h⟩ <;> rw [hk] <;> exact h
    rw [State.intakeCoupler_of_frame hf, State.dispatch_of_short hshort, State.intakeC_of_refused hf (.inr hshort)]
    exact ⟨rfl, rfl⟩
  · have hlink : f.kind.isLink = true := by rcases h with hk | hk <;> rw [hk] <;> rfl
    rw [State.intakeC_of_refused hf (.inl hlink)]
    rfl
  · rw [State.intakeCoupler_of_frame hf]
    simp only [State.dispatch, h]

/-! ## The rouse filter -/

/-- Six copies of a word begin with the word. -/
theorem wordAt_of_copies {p : List Byte} {w : Word} (h : (p.drop 8).take 24 = (List.replicate 6 (Word.bytes w)).flatten) :
    wordAt p 8 = w := by
  have hbyte (i : Nat) (hi : i < 24) : byteAt p (8 + i) = byteAt (List.replicate 6 (Word.bytes w)).flatten i := by
    rw [← h, ← byteAt_drop, byteAt, byteAt, List.getD_eq_getElem?_getD, List.getD_eq_getElem?_getD, List.getElem?_take_of_lt hi]
  have hword : wordAt p 8 = wordAt (Word.bytes w) 0 := by
    rw [wordAt, halfAt, halfAt, hbyte 0 (by decide), hbyte 1 (by decide), hbyte 2 (by decide), hbyte 3 (by decide)]
    rfl
  rw [hword, wordAt_bytes]

theorem rouseTarget_eq_some {p : List Byte} {w : Word} :
    rouseTarget p = some w ↔
      32 ≤ p.length ∧ p.take 8 = List.replicate 8 0x5A ∧ (p.drop 8).take 24 = (List.replicate 6 (Word.bytes w)).flatten := by
  constructor
  · intro h
    unfold rouseTarget at h
    split at h
    · cases h
    · split at h
      · cases h
      · split at h
        · cases h
        · rename_i hlen hhead hcopies
          cases h
          exact ⟨Nat.not_lt.1 hlen, Classical.not_not.1 hhead, Classical.not_not.1 hcopies⟩
  · rintro ⟨hlen, hhead, hcopies⟩
    rw [rouseTarget, if_neg (Nat.not_lt.2 hlen), if_neg (not_not_intro hhead), wordAt_of_copies hcopies,
      if_neg (not_not_intro hcopies)]

/-- R52. -/
theorem State.isRouseMatch_iff (s : State) (bytes : List Byte) : s.isRouseMatch bytes = true ↔ RouseMatches s bytes := by
  unfold RouseMatches
  constructor
  · intro h
    unfold State.isRouseMatch at h
    split at h
    · cases h
    · rename_i f hf
      obtain ⟨hk, ht⟩ := Bool.and_eq_true_iff.1 h
      split at ht
      · cases ht
      · rename_i w hw
        obtain ⟨hlen, hhead, hcopies⟩ := rouseTarget_eq_some.1 hw
        refine ⟨f, w, hf, by simpa using hk, hlen, hhead, hcopies, ?_⟩
        simpa [CommandUnit.isOwn] using ht
  · rintro ⟨f, w, hf, hk, hlen, hhead, hcopies, ht⟩
    have hw : rouseTarget f.payload = some w := rouseTarget_eq_some.2 ⟨hlen, hhead, hcopies⟩
    simpa only [State.isRouseMatch, hf, hk, hw, CommandUnit.isOwn, Bool.and_eq_true, Bool.or_eq_true, beq_iff_eq, bne_iff_ne,
      beq_self_eq_true, true_and] using ht

/-- Nothing is eligible while DORMANT (R161). -/
theorem State.served_of_dormant {s : State} (h : s.power = .dormant) : s.served := fun p _ => by rw [State.pick, if_pos h]

section
variable {s : State} {e : End} {bytes : List Byte}

theorem exec_arrivals_of_dormant (h : s.power = .dormant) :
    exec (.dormantArrival e bytes) s = .next (s.rouseFilter e bytes)
      ∧ exec (.arrivalOnCouplerPort e bytes) s = .next (s.rouseFilter e bytes) ∧ exec (.arrivalOnPortC bytes) s = .next s := by
  have hb : s.begun = s := State.begun_of_served (State.served_of_dormant h)
  have hdormant : exec (.dormantArrival e bytes) s
      = .next (match s.begun.power with | .dormant => s.begun.rouseFilter e bytes | .active => s.begun.intakeCoupler e bytes) := rfl
  have harrival : exec (.arrivalOnCouplerPort e bytes) s
      = .next (match s.begun.power with | .active => s.begun.intakeCoupler e bytes | .dormant => s.begun.rouseFilter e bytes) := rfl
  have hportC : exec (.arrivalOnPortC bytes) s
      = .next (match s.begun.power with | .active => s.begun.intakeC bytes | .dormant => s.begun) := rfl
  rw [hdormant, harrival, hportC, hb, h]
  exact ⟨rfl, rfl, rfl⟩

end

/-- Settles O10: the rouse filter takes a match with the capture empty, and wakes the part. -/
theorem rouseMatchWakesAndCaptures : Obligations.RouseMatchWakesAndCaptures := by
  intro e bytes s
  refine ⟨fun hd hm hc => ?_, fun hd h => ?_, fun hd => (exec_arrivals_of_dormant (e := e) hd).2.2, fun ha => ?_⟩
  · obtain ⟨hdormant, harrival, -⟩ := exec_arrivals_of_dormant (e := e) (bytes := bytes) hd
    have hfilter : s.rouseFilter e bytes
        = ({ s with rouse := { capture := some (s.captureOf e bytes), wakeFlag := true } } : State).wake := by
      rw [State.rouseFilter, if_pos]
      simp [(s.isRouseMatch_iff bytes).2 hm, hc]
    exact ⟨_, hdormant, harrival, by rw [hfilter]; exact State.wake_woken _⟩
  · obtain ⟨hdormant, harrival, -⟩ := exec_arrivals_of_dormant (e := e) (bytes := bytes) hd
    have hfilter : s.rouseFilter e bytes = s := by
      rw [State.rouseFilter, if_neg]
      rw [Bool.and_eq_true, State.isRouseMatch_iff, Option.isNone_iff_eq_none]
      exact fun hn => h.elim (fun hm => hm hn.1) fun hc => hc hn.2
    rw [hdormant, harrival, hfilter]
    exact ⟨rfl, rfl⟩
  · have hb : s.begun.power = .active := by simpa using ha
    have hdormant : exec (.dormantArrival e bytes) s
        = .next (match s.begun.power with | .dormant => s.begun.rouseFilter e bytes | .active => s.begun.intakeCoupler e bytes) := rfl
    have harrival : exec (.arrivalOnCouplerPort e bytes) s
        = .next (match s.begun.power with | .active => s.begun.intakeCoupler e bytes | .dormant => s.begun.rouseFilter e bytes) := rfl
    rw [hdormant, harrival, hb]

end Sys2Proof.Machine
end

section
/-! The receipt of a GREET in each link state (R26, R32, R35, R37, R41), and the generation of a data frame (R72 to R74) with what the end
of the grace period changes about it (R123). -/

namespace Sys2Proof.Machine

/-! ## GREET -/

section
variable {s : State} {e : End} {f : Frame} {g : GreetBody}

/-- R26: the GREET names this part. -/
theorem State.isNamed_iff (s : State) (e : End) (g : GreetBody) :
    s.isNamed e g = true ↔ s.cu.loaded = true ∧ g.heard = s.cu.identity ∧ g.heardEnd = End.code e := by
  simp [State.isNamed, CommandUnit.isOwn_iff, and_assoc]

/-- R37: the GREET comes from the recorded neighbour. -/
theorem Clm.isFromNeighbour_iff (c : Clm) (g : GreetBody) :
    c.isFromNeighbour g = true ↔ ∃ n, c.neighbour = some n ∧ n.identity = g.sender ∧ n.endCode = g.senderEnd := by
  cases hn : c.neighbour <;> simp [Clm.isFromNeighbour, hn]

theorem State.dispatch_of_greet (hk : f.kind = .greet) (hlen : 12 ≤ f.payload.length) :
    s.dispatch e f
      = if validIdentity (greetBody f.payload).sender = false then s.take [f.discard (.port (End.toPort e)) .frameFault]
        else s.validGreet e (greetBody f.payload) := by
  have hshort : ¬ f.payload.length < Kind.fixedBody .greet := Nat.not_lt.2 hlen
  simp only [State.dispatch, hk, State.greetReceipt, if_neg hshort]

theorem State.validGreet_of_deaf (hl : (s.clm e).link = .dark ∨ (s.clm e).link = .settling ∨ (s.clm e).link = .listen) :
    s.validGreet e g = s := by
  rcases hl with hl | hl | hl <;> simp only [State.validGreet, hl]

theorem State.validGreet_of_greeting (hl : (s.clm e).link = .greeting) :
    s.validGreet e g
      = if s.isNamed e g then (s.setClm e ((s.clm e).enterJoined s.clock g.sender g.senderEnd g.generation)).linkChange
        else s.setClm e { s.clm e with candidate := some g.candidate } := by
  simp only [State.validGreet, hl]

theorem State.validGreet_of_mute (hl : (s.clm e).link = .mute) :
    s.validGreet e g
      = s.setClm e { (s.clm e).enterGreeting s.cu.timing (some g.candidate) with slot := { greet := true, rouse := false } } := by
  simp only [State.validGreet, hl]
  rfl

/-- R37, R41: FADING takes a GREET as JOINED does. -/
theorem State.validGreet_of_joined (hl : (s.clm e).link.isJoined = true) :
    s.validGreet e g
      = if (s.clm e).isFromNeighbour g && s.isNamed e g then s.setClm e ((s.clm e).keepAlive g)
        else s.lose e .changed (some g.candidate) := by
  cases hl' : (s.clm e).link with
  | joined | fading => simp only [State.validGreet, hl']
  | dark | settling | greeting | mute | listen => simp [hl', LinkState.isJoined] at hl

end

/-- Settles O12: the tests of R26, and what each link state makes of a valid GREET. -/
theorem greetReceiptInEveryLinkState : Obligations.GreetReceiptInEveryLinkState := by
  intro e bytes s f sender heard senderEnd heardEnd g hs ha hf hk hlen hsender hsenderEnd hg hheard hheardEnd named recorded run
  have hbody : greetBody f.payload = ⟨sender, senderEnd, g, heard, heardEnd⟩ := by
    rw [hsender, hsenderEnd, hg, hheard, hheardEnd]
    rfl
  have hnamed : s.isNamed e (greetBody f.payload) = true ↔ named := by rw [State.isNamed_iff, hbody]
  have hrecorded : (s.clm e).isFromNeighbour (greetBody f.payload) = true ↔ recorded := by rw [Clm.isFromNeighbour_iff, hbody]
  have hrun : run = .next (s.dispatch e f) := by
    rw [← State.intakeCoupler_of_frame hf]
    exact exec_arrivalOnCouplerPort_of_active hs ha
  have hvalid : validIdentity (greetBody f.payload).sender = false ↔ sender = 0 ∨ sender = 0xFFFFFFFF := by
    rw [hbody, ← Bool.not_eq_true, validIdentity_iff, Classical.not_and_iff_not_or_not, Classical.not_not, Classical.not_not]
  rw [hrun, State.dispatch_of_greet hk hlen]
  refine ⟨fun h => by rw [if_pos (hvalid.2 h)]; rfl, fun h0 h1 => ?_⟩
  rw [if_neg (mt hvalid.1 (not_or.2 ⟨h0, h1⟩))]
  refine ⟨fun hl => ?_, fun hl hn => ?_, fun hl hn => ?_, fun hl => ?_, fun hl hr hn => ?_, fun hl hn => ?_⟩
  · rw [State.validGreet_of_deaf hl]
  · rw [State.validGreet_of_greeting hl, if_pos (hnamed.2 hn), hbody]
    rfl
  · rw [State.validGreet_of_greeting hl, if_neg (mt hnamed.1 hn), hbody]
    rfl
  · rw [State.validGreet_of_mute hl, hbody]
    rfl
  · rw [State.validGreet_of_joined hl, if_pos (by rw [Bool.and_eq_true, hrecorded, hnamed]; exact ⟨hr, hn⟩), hbody]
    rfl
  · rw [State.validGreet_of_joined hl, if_neg (by rwa [Bool.and_eq_true, hrecorded, hnamed]), hbody]
    rfl

/-! ## The generation of a data frame -/

section
variable {s : State} {e : End} {f : Frame}

theorem State.implicitEnactment_of_enactsNothing (h : s.enactsNothing f.generation) : s.implicitEnactment f = s := by
  cases hst : s.su.staging with
  | confirmed b r => simp only [State.implicitEnactment, hst, if_neg (Ne.symm (h b r hst))]
  | empty | filling _ | confirming _ _ => simp only [State.implicitEnactment, hst]

theorem State.dispatch_of_data (hk : f.kind.isData = true) : s.dispatch e f = (s.implicitEnactment f).judgeGeneration e f := by
  cases hk' : f.kind with
  | process | message | bulk => simp only [State.dispatch, hk', State.afterDispatch, Kind.isData, if_true]
  | mgmtReq | mgmtRsp | notice | greet | rouse => simp [hk', Kind.isData] at hk

/-- A data frame that enacts nothing is judged by its generation (R72). -/
theorem exec_arrival_of_data {bytes : List Byte} (hs : s.served) (ha : s.power = .active) (hf : parseFrame bytes = some f)
    (hk : f.kind.isData = true) (hn : s.enactsNothing f.generation) :
    exec (.arrivalOnCouplerPort e bytes) s = .next (s.judgeGeneration e f) := by
  rw [exec_arrivalOnCouplerPort_of_active hs ha, State.intakeCoupler_of_frame hf, State.dispatch_of_data hk,
    State.implicitEnactment_of_enactsNothing hn]

theorem State.foreignCheck_of_matched (h : s.ru.standing e = .matched) : s.foreignCheck e f = s.routeData (End.toPort e) f := if_pos h

theorem State.foreignCheck_of_ne (h : s.ru.standing e ≠ .matched) :
    s.foreignCheck e f = s.lost .foreignLink (.port (End.toPort e)) f.kind.code f.srcId := if_neg h

theorem State.judgeGeneration_of_active (h : f.generation = s.ru.active.generation) : s.judgeGeneration e f = s.foreignCheck e f :=
  if_pos h

theorem State.judgeGeneration_of_stale (h : f.generation ≠ s.ru.active.generation)
    (hp : ∀ p, s.ru.prior = some p → p.generation ≠ f.generation) :
    s.judgeGeneration e f = s.lost .staleGeneration (.port (End.toPort e)) f.kind.code f.srcId := by
  rw [State.judgeGeneration, if_neg h]
  cases hprior : s.ru.prior with
  | none => rfl
  | some p => simp only [if_neg (Ne.symm (hp p hprior))]; rfl

theorem State.judgeGeneration_of_prior {p : PriorRoster} (h : f.generation ≠ s.ru.active.generation) (hp : s.ru.prior = some p)
    (hg : p.generation = f.generation) :
    s.judgeGeneration e f
      = match translate p.records s.ru.active f with
        | some f' => s.foreignCheck e f'
        | none => s.lost .stranded (.port (End.toPort e)) f.kind.code f.srcId := by
  simp only [State.judgeGeneration, if_neg h, hp, if_pos hg.symm]
  rfl

/-- R73: a frame of the prior generation goes on as it would had it arrived in the terms of the active roster. -/
theorem State.judgeGeneration_of_translated {p : PriorRoster} {f' : Frame} (h : f.generation ≠ s.ru.active.generation)
    (hp : s.ru.prior = some p) (hg : p.generation = f.generation)
    (ht : Translates p.records s.ru.active.records s.ru.active.generation f f') : s.judgeGeneration e f = s.foreignCheck e f' := by
  rw [State.judgeGeneration_of_prior h hp hg, translate_eq_some.2 ht]

end

/-- Settles O15, by `State.judgeGeneration` and `State.foreignCheck`. -/
theorem dataFrameGenerationHandling : Obligations.DataFrameGenerationHandling := by
  intro e bytes s f hs ha hf hk hn run lost
  have hrun : run = .next (s.judgeGeneration e f) := exec_arrival_of_data hs ha hf hk hn
  rw [hrun]
  refine ⟨fun hg hm => ?_, fun hg hm => ?_, fun hg hp => ?_, fun p hg hp hpg => ⟨fun ht => ?_, fun f' ht => ⟨fun hm => ?_, fun hm => ?_⟩⟩⟩
  · rw [State.judgeGeneration_of_active hg, State.foreignCheck_of_ne hm]
  · rw [State.judgeGeneration_of_active hg, State.foreignCheck_of_matched hm]
  · rw [State.judgeGeneration_of_stale hg hp]
  · rw [State.judgeGeneration_of_prior hg hp hpg, translate_eq_none.2 ht]
  · rw [State.judgeGeneration_of_translated hg hp hpg ht, State.foreignCheck_of_ne hm]
  · rw [State.judgeGeneration_of_translated hg hp hpg ht, State.foreignCheck_of_matched hm]

/-! ## The grace timer -/

theorem exec_graceTimerExpiry {s : State} (hs : s.served) :
    exec .graceTimerExpiry s = .next (if isDue s.ru.grace then { s with ru := { s.ru with prior := none, grace := none } } else s) :=
  State.runs_of_served hs fun s => if isDue s.ru.grace then { s with ru := { s.ru with prior := none, grace := none } } else s

/-- No arbiter reads the prior roster. -/
theorem State.served_withoutPrior {s : State} (hs : s.served) :
    ({ s with ru := { s.ru with prior := none, grace := none } } : State).served := hs

/-- Settles O33: without a prior roster every other generation is stale. -/
theorem graceExpiryDropsPriorRoster : Obligations.GraceExpiryDropsPriorRoster := by
  refine ⟨fun s hs h => by rw [exec_graceTimerExpiry hs, if_neg (mt (isDue_iff _).1 h)], fun s t hs h ht => ⟨?_, ?_⟩⟩
  · rw [exec_graceTimerExpiry hs, if_pos ((isDue_iff _).2 h), ht]
  · intro e bytes f p ha hf hk hn hp hpg hne
    have hg : f.generation ≠ s.ru.active.generation := by rwa [hpg]
    refine ⟨?_, fun f' bytes' htrans hf' hn' => ?_⟩
    · have ht' : t.served ∧ t.power = .active ∧ t.enactsNothing f.generation ∧ f.generation ≠ t.ru.active.generation
          ∧ t.ru.prior = none := by
        rw [ht]
        exact ⟨State.served_withoutPrior hs, ha, hn, hg, rfl⟩
      obtain ⟨hst, hat, hnt, hgt, hpt⟩ := ht'
      rw [exec_arrival_of_data hst hat hf hk hnt, State.judgeGeneration_of_stale hgt (by simp [hpt])]
    · obtain ⟨own, d, hown, hd, hf''⟩ := id htrans
      have hk' : f'.kind.isData = true := by rw [hf'']; exact hk
      have hg' : f'.generation = s.ru.active.generation := by rw [hf'']
      rw [exec_arrival_of_data hs ha hf hk hn, exec_arrival_of_data hs ha hf' hk' hn',
        State.judgeGeneration_of_translated hg hp hpg.symm htrans, State.judgeGeneration_of_active hg']

end Sys2Proof.Machine
end

section
/-! The purges as one state (R164 to R166), the loss of a link (R42, R43), link changes (R65) and the NOTICE (R128 to R130). -/

namespace Sys2Proof.Machine

/-! ## The purges -/

theorem Eqm.abandonLinkControl_eq (q : Eqm) (p : Port) :
    q.abandonLinkControl p =
      q.setPort p { q.port p with
        tx := match (q.port p).tx with | some ⟨.greet, _⟩ => none | some ⟨.rouse, _⟩ => none | x => x } := by
  have hsame : q = q.setPort p { q.port p with tx := (q.port p).tx } := by cases p <;> rfl
  unfold Eqm.abandonLinkControl
  match htx : (q.port p).tx with
  | none | some ⟨.queued _ _, _⟩ => rw [htx] at hsame; exact hsame
  | some ⟨.greet, _⟩ | some ⟨.rouse, _⟩ => rfl

/-- A port without the queued frame it sends (R164). -/
def PortQueues.aborted (x : PortQueues) : PortQueues :=
  { x with tx := match x.tx with | some ⟨.queued _ _, _⟩ => none | t => t }

@[simp] theorem PortQueues.aborted_entries (x : PortQueues) : x.aborted.entries = x.entries := rfl

theorem Eqm.abortLost_eq (q : Eqm) (p : Port) :
    q.abortLost p =
      ({ q.setPort p (q.port p).aborted with freeCells := q.freeCells + cellsOf (q.port p).sent },
        (q.port p).sent.map (·.discard .linkLost)) := by
  have hsame : q = { q.setPort p { q.port p with tx := (q.port p).tx } with freeCells := q.freeCells } := by cases p <;> rfl
  unfold Eqm.abortLost PortQueues.aborted PortQueues.sent
  match htx : (q.port p).tx with
  | none | some ⟨.greet, _⟩ | some ⟨.rouse, _⟩ => rw [htx] at hsame; simpa using hsame
  | some ⟨.queued _ e, _⟩ => simp

/-- A port with nothing queued. -/
def PortQueues.drained (x : PortQueues) : PortQueues := { c0 := [], c1 := [], c2 := [], c3 := [], tx := x.tx }

theorem Eqm.purgeQueues_all (q : Eqm) (p : Port) (r : Reason) :
    q.purgeQueues p r [.c0, .c1, .c2, .c3] =
      ({ q.setPort p (q.port p).drained with freeCells := q.freeCells + cellsOf (q.port p).entries },
        (q.port p).entries.map (·.discard r)) := by
  cases p <;>
    simp [Eqm.purgeQueues, Eqm.purgeQueue, Eqm.setQueue, Eqm.setPort, Eqm.port, Eqm.queue, PortQueues.queue, PortQueues.setQueue,
      PortQueues.entries, PortQueues.drained, Nat.add_assoc]

theorem Eqm.purgeQueues_data (q : Eqm) (p : Port) (r : Reason) :
    q.purgeQueues p r [.c1, .c2, .c3] =
      ({ q.setPort p { q.port p with c1 := [], c2 := [], c3 := [] } with
         freeCells := q.freeCells + cellsOf (q.queue p .c1 ++ q.queue p .c2 ++ q.queue p .c3) },
        (q.queue p .c1 ++ q.queue p .c2 ++ q.queue p .c3).map (·.discard r)) := by
  cases p <;>
    simp [Eqm.purgeQueues, Eqm.purgeQueue, Eqm.setQueue, Eqm.setPort, Eqm.port, Eqm.queue, PortQueues.queue, PortQueues.setQueue,
      Nat.add_assoc]

/-- R165: the frame on the line is lost first, then C0 to C3. -/
theorem State.linkLossPurge_eq (s : State) (p : Port) :
    s.linkLossPurge p =
      { s with
        eqm := { s.eqm.setPort p (s.eqm.port p).aborted.drained with
                 freeCells := s.eqm.freeCells + cellsOf ((s.eqm.port p).sent ++ (s.eqm.port p).entries) }
        discards := s.discards.addAll s.clock
          (((s.eqm.port p).sent ++ (s.eqm.port p).entries).map (·.discard .linkLost)) } := by
  unfold State.linkLossPurge
  rw [Eqm.abortLost_eq]
  dsimp only
  rw [Eqm.purgeQueues_all]
  cases p <;> simp [State.take, Eqm.setPort, Eqm.port, Nat.add_assoc]

theorem State.standingLeavePurge_eq (s : State) (e : End) :
    s.standingLeavePurge e =
      { s with
        eqm := { s.eqm.setPort (End.toPort e) { s.eqm.port (End.toPort e) with c1 := [], c2 := [], c3 := [] } with
                 freeCells := s.eqm.freeCells + cellsOf (s.eqm.queue (End.toPort e) .c1 ++ s.eqm.queue (End.toPort e) .c2
                   ++ s.eqm.queue (End.toPort e) .c3) }
        discards := s.discards.addAll s.clock
          ((s.eqm.queue (End.toPort e) .c1 ++ s.eqm.queue (End.toPort e) .c2 ++ s.eqm.queue (End.toPort e) .c3).map
            (·.discard (if (s.clm e).link.isJoined then (if s.ru.standing e = .foreign then .foreignLink else .noPath) else .linkLost))) } := by
  unfold State.standingLeavePurge
  dsimp only
  rw [Eqm.purgeQueues_data]
  rfl

/-! ## What a link change leaves of a port whose link is down -/

/-- An offer changes its own port alone. -/
theorem State.offer_port_of_ne (s : State) {p p' : Port} (hp : p' ≠ p) (c : Cls) (x : Entry) :
    (s.offer p c x).eqm.port p' = s.eqm.port p' := by
  rw [State.offer_eqm]
  exact (Eqm.admitCopy_admission ..).port_of_ne hp

theorem End.toPort_ne_c (e : End) : End.toPort e ≠ .c := by cases e <;> decide

/-- A NOTICE goes to no port whose link is down (R129). -/
theorem State.offerNotice_port_of_down (s : State) (f : Frame) (e e' : End) (h : (s.clm e).link.isJoined = false) :
    (s.offerNotice f e').eqm.port (End.toPort e) = s.eqm.port (End.toPort e) := by
  unfold State.offerNotice
  by_cases he : e' = e
  · rw [he, if_neg (by simp [h])]
  · split
    · exact s.offer_port_of_ne (fun hp => he (End.toPort_injective hp).symm) _ _
    · rfl

theorem State.emit_port_of_down (s : State) (e : End) (h : (s.clm e).link.isJoined = false) :
    s.emit.eqm.port (End.toPort e) = s.eqm.port (End.toPort e) := by
  have hlast : s.emit.eqm.port (End.toPort e)
      = ((s.offerNotice s.buildNotice .a).offerNotice s.buildNotice .b).eqm.port (End.toPort e) := by
    simp only [State.emit, State.noticeTimerAfterEmission_frame]
    exact State.offer_port_of_ne _ (End.toPort_ne_c e) _ _
  rw [hlast, State.offerNotice_port_of_down _ _ _ _ (by simpa using h), State.offerNotice_port_of_down _ _ _ _ h]

/-- R65, R127: the computation, the purges of the ends that left MATCHED, and one NOTICE. -/
theorem State.linkChange_eq (s : State) :
    s.linkChange = (((s.recompute false).purgeIfLeft s.ru .a).purgeIfLeft s.ru .b).emit := by
  rw [State.linkChange, State.handOverNotice, if_pos (.inl rfl)]

/-- What is empty stays empty at a link change, on a link that is down. -/
theorem State.linkChange_clear (s : State) (e : End) (h : (s.clm e).link.isJoined = false) (hc : (s.eqm.port (End.toPort e)).Clear) :
    (s.linkChange.eqm.port (End.toPort e)).Clear := by
  obtain ⟨hnil, htx⟩ := hc
  obtain ⟨hqa, hta⟩ := (s.recompute false).purgeIfLeft_port s.ru .a (End.toPort e)
  obtain ⟨hqb, htb⟩ := ((s.recompute false).purgeIfLeft s.ru .a).purgeIfLeft_port s.ru .b (End.toPort e)
  have hemit : s.linkChange.eqm.port (End.toPort e)
      = ((((s.recompute false).purgeIfLeft s.ru .a).purgeIfLeft s.ru .b)).eqm.port (End.toPort e) := by
    rw [State.linkChange_eq]
    exact State.emit_port_of_down _ e (by simpa using h)
  rw [hemit]
  refine ⟨(PortQueues.entries_eq_nil_iff _).2 fun c => ?_, ?_⟩
  · have hold : (s.recompute false).eqm.queue (End.toPort e) c = [] := (PortQueues.entries_eq_nil_iff _).1 hnil c
    refine (hqb c).trans ?_
    split
    · rfl
    · refine (hqa c).trans ?_
      split
      · rfl
      · exact hold
  · rw [htb, hta]
    exact htx

theorem PortQueues.Clear.sent {x : PortQueues} (h : x.Clear) : x.sent = [] := by
  unfold PortQueues.sent
  split
  · rename_i htx
    exact absurd htx (h.2 _ _ _)
  · rfl

/-- The loss of a JOINED link (R31, R42). -/
theorem State.lose_of_joined {s : State} {e : End} (hl : (s.clm e).link = .joined) (cause : LossCause) (cand : Option Candidate) :
    s.lose e cause cand
      = ((s.setClm e (.greeting s.cu.timing cand { clock := s.clock, cause := cause } (s.clm e).slot.rouse)).linkLossPurge
          (End.toPort e)).linkChange := by
  rw [State.lose, if_neg (by simp [hl])]
  rfl

/-- The loss of a FADING link (R29, R42). -/
theorem State.lose_of_fading {s : State} {e : End} (hl : (s.clm e).link = .fading) (cause : LossCause) (cand : Option Candidate) :
    s.lose e cause cand
      = (({ s.setClm e (s.darkened e { clock := s.clock, cause := cause }) with
            eqm := s.eqm.abandonLinkControl (End.toPort e) } : State).linkLossPurge (End.toPort e)).linkChange := by
  rw [State.lose, if_pos hl, State.loseToDark, State.enterDark_eq, State.setClm_setClm, State.clm_setClm_self, State.setClm_eqm,
    State.darkened_congr (s := s) (by simp) (by simp)]
  rfl

theorem State.lostClm_link (s : State) (e : End) (cause : LossCause) (cand : Option Candidate) :
    (s.lostClm e cause cand).link.isJoined = false := by
  unfold State.lostClm State.darkened
  split
  · split <;> rfl
  · rfl

/-- Settles O13: a loss is its monitor, the link-loss purge and the link change, which offers nothing to a link that is down. -/
theorem lossOfLinkPurgesItsPort : Obligations.LossOfLinkPurgesItsPort := by
  refine ⟨fun e s cause cand => ?_, fun s p => ?_, fun q p => ?_⟩
  · refine ⟨fun hl => ⟨State.lose_of_joined hl cause cand, ?_⟩, fun hl => ⟨State.lose_of_fading hl cause cand, ?_⟩, ?_, fun hl => ?_⟩
    · rw [State.lose_clm, if_pos rfl, State.lostClm, if_neg (by simp [hl])]
      rfl
    · rw [State.lose_clm, if_pos rfl, State.lostClm, if_pos hl]
    · rw [State.lose_clm, if_neg (by cases e <;> decide)]
    · obtain ⟨u, hu, -, -, -, -, -, hclm⟩ := s.lose_eq e cause cand
      have hdown : ((u.linkLossPurge (End.toPort e)).clm e).link.isJoined = false := by
        have hclm' := hclm e
        rw [if_pos rfl] at hclm'
        simp [hclm', State.lostClm_link]
      have hclear := State.linkChange_clear _ e hdown ((u.linkLossPurge_port (End.toPort e) (End.toPort e)).1 rfl)
      rw [hu]
      exact ⟨(PortQueues.entries_eq_nil_iff _).1 hclear.1, hclear.sent⟩
  · rw [State.linkLossPurge_eq]
    rfl
  · exact Eqm.abandonLinkControl_eq q p

/-! ## The NOTICE -/

theorem Clm.noticeReport_eq (c : Clm) (st : Standing) : endReport c st = c.noticeReport st := by
  unfold endReport Clm.noticeReport
  cases c.link.isJoined <;> rfl

theorem Staging.confirmedGeneration_eq (st : Staging) :
    st.confirmedGeneration = match st with | .confirmed _ r => r.generation | _ => 0 := by
  cases st <;> rfl

/-- R7, R128: the NOTICE the part builds is that of the spec. -/
theorem State.buildNotice_eq (s : State) : s.buildNotice = s.noticeFrame := by
  rw [State.buildNotice, State.noticeBody, Clm.noticeReport_eq, Clm.noticeReport_eq, Staging.confirmedGeneration_eq]
  rfl

theorem State.offerNotice_eq (s : State) (f : Frame) (e : End) :
    s.offerNotice f e = if (s.clm e).link.isJoined then s.offer (End.toPort e) .c0 (controlEntry .internal f) else s := rfl

/-- R129: the copies of a NOTICE for the coupler ports. -/
theorem State.offerNotice_both (s : State) (f : Frame) :
    (s.offerNotice f .a).offerNotice f .b =
      let s1 := if s.clmA.link.isJoined then s.offer .a .c0 (controlEntry .internal f) else s
      if s.clmB.link.isJoined then s1.offer .b .c0 (controlEntry .internal f) else s1 := by
  have hb : (s.offerNotice f .a).clm .b = s.clmB := by simp [State.clm]
  rw [State.offerNotice_eq _ f .b, hb, State.offerNotice_eq s f .a]
  rfl

/-- R130: the notice timer after an emission reads the settled flag, the timer before and the notice interval. -/
theorem State.noticeTimerAfterEmission_eq {s u : State} (hng : u.ng = s.ng) (hcu : u.cu = s.cu) :
    u.noticeTimerAfterEmission =
      { u with ng := { settled := s.ng.settled
                       timer := if s.ng.settled then none else if s.ng.timer = some 0 then some 0
                                else startMs s.cu.timing.noticeInterval } } := by
  have hdue (x y : Timer) : (if isDue s.ng.timer = true then x else y) = if s.ng.timer = some 0 then x else y :=
    ite_congr (propext (isDue_iff _)) (fun _ => rfl) fun _ => rfl
  rw [← hdue, ← hng, ← hcu]
  rfl

/-- R129, R130: one emission is the NOTICE announced. -/
theorem State.emit_eq_announced (s : State) : s.emit = s.announced := by
  simp only [State.emit, State.buildNotice_eq]
  rw [State.noticeTimerAfterEmission_eq (s := s) (by simp) (by simp), State.offerNotice_both]
  rfl

/-- The purge of an end that left MATCHED. -/
theorem State.purgeIfLeft_of_left {t : State} {u : RosterUnit} {e : End} (h : u.standing e = .matched ∧ t.ru.standing e ≠ .matched) :
    t.purgeIfLeft u e = t.standingLeavePurge e := if_pos h

theorem State.purgeIfLeft_of_not_left {t : State} {u : RosterUnit} {e : End}
    (h : ¬ (u.standing e = .matched ∧ t.ru.standing e ≠ .matched)) : t.purgeIfLeft u e = t := if_neg h

/-- R65: the computation changes the judgements alone. -/
theorem State.recompute_eq (s : State) (b : Bool) :
    s.recompute b = { s with ru := (s.recompute b).ru, ng := { s.ng with settled := (s.recompute b).ng.settled } } := rfl

/-- R130: the notice timer after an emission. -/
theorem State.announced_noticeTimer (s : State) :
    s.announced.ng.timer
      = if s.ng.settled then none else if s.ng.timer = some 0 then some 0 else startMs s.cu.timing.noticeInterval := rfl

/-- Settles O14: a link change is `State.recompute`, the purges of the ends that left MATCHED, and one emission. -/
theorem linkChangeRecomputesJudgements : Obligations.LinkChangeRecomputesJudgements := by
  refine ⟨fun s => ?_, fun s e => ?_⟩
  · intro t judged left
    have hru : t.ru = (s.recompute false).ru := by simp [t]
    have hng : t.ng.settled = (s.recompute false).ng.settled := by simp [t]
    have hjudged : judged = s.recompute false := by
      rw [State.recompute_eq, ← hru, ← hng]
    have hstanding (e : End) : ((s.recompute false).purgeIfLeft s.ru .a).ru.standing e = t.ru.standing e := by rw [hru]; simp
    have hann : t = (((s.recompute false).purgeIfLeft s.ru .a).purgeIfLeft s.ru .b).announced := by
      rw [← State.emit_eq_announced, ← State.linkChange_eq]
    refine ⟨(s.recompute false).purgeIfLeft s.ru .a, ((s.recompute false).purgeIfLeft s.ru .a).purgeIfLeft s.ru .b,
      fun h => ?_, fun h => ?_, fun h => ?_, fun h => ?_, hann, State.eq_of_fields (by simp [t]), by simp [t], by simp [t], by simp [t],
      s.linkChange_judgedFrom, ?_⟩
    · rw [hjudged, State.purgeIfLeft_of_left (by rwa [← hru])]
    · rw [hjudged, State.purgeIfLeft_of_not_left (by rwa [← hru])]
    · rw [State.purgeIfLeft_of_left (by rwa [hstanding])]
    · rw [State.purgeIfLeft_of_not_left (by rwa [hstanding])]
    · rw [hng, hann, State.announced_noticeTimer]
      simp
  · intro p lost reason
    have hreason : (if (s.clm e).link.isJoined then (if s.ru.standing e = .foreign then Reason.foreignLink else .noPath) else .linkLost)
        = reason := by
      cases hj : (s.clm e).link.isJoined <;> simp [reason, hj]
    rw [State.standingLeavePurge_eq, hreason]

end Sys2Proof.Machine
end

section
/-! The notice timer (R126, R130): the emission at its expiry, and the expiry that a hand-over came together with. -/

namespace Sys2Proof.Machine

/-- The state with another notice generator. -/
def State.withNg (s : State) (n : NoticeGenerator) : State := { s with ng := n }

@[simp] theorem State.withNg_withNg (s : State) (m n : NoticeGenerator) : (s.withNg m).withNg n = s.withNg n := rfl

/-- No admission reads the notice generator. -/
theorem State.offer_withNg (s : State) (n : NoticeGenerator) (p : Port) (c : Cls) (x : Entry) :
    (s.withNg n).offer p c x = (s.offer p c x).withNg n := by
  have hup : (s.withNg n).portJoined p = s.portJoined p ∧ (s.withNg n).portMatched p = s.portMatched p := by
    cases p <;> exact ⟨rfl, rfl⟩
  have heqm : (s.withNg n).eqm = s.eqm := rfl
  unfold State.offer
  rw [hup.1, hup.2, heqm]
  split <;> rfl

theorem State.offerNotice_withNg (s : State) (n : NoticeGenerator) (f : Frame) (e : End) :
    (s.withNg n).offerNotice f e = (s.offerNotice f e).withNg n := by
  have hclm : (s.withNg n).clm e = s.clm e := by cases e <;> rfl
  rw [State.offerNotice_eq, State.offerNotice_eq, hclm, State.offer_withNg]
  split <;> rfl

/-- One emission by its offers. -/
theorem State.announced_eq (s : State) :
    s.announced =
      (((s.offerNotice s.noticeFrame .a).offerNotice s.noticeFrame .b).offer .c .c0 (controlEntry .internal s.noticeFrame)).withNg
        s.announced.ng := by
  rw [State.offerNotice_both]
  rfl

/-- The NOTICE and its copies are the same whatever the notice generator holds. -/
theorem State.announced_withNg (s : State) (n : NoticeGenerator) :
    (s.withNg n).announced = s.announced.withNg (s.withNg n).announced.ng := by
  have hframe : (s.withNg n).noticeFrame = s.noticeFrame := rfl
  rw [State.announced_eq s, State.announced_eq (s.withNg n), hframe, State.offerNotice_withNg, State.offerNotice_withNg,
    State.offer_withNg, State.withNg_withNg, State.withNg_withNg]
  rfl

theorem Clm.noticeReport_length (c : Clm) (st : Standing) : (c.noticeReport st).length = 12 := by
  unfold Clm.noticeReport
  split
  · split <;> rfl
  · rfl

/-- R128: a NOTICE has 28 bytes. -/
theorem State.noticeFrame_length (s : State) : s.noticeFrame.payload.length = 28 := by
  simp [State.noticeFrame, Clm.noticeReport_length, Half.bytes]

/-- The expiry takes the state that the starts which are due leave. -/
theorem exec_noticeTimerExpiry_begun (s : State) :
    exec .noticeTimerExpiry s = .next (if isDue s.begun.ng.timer then s.begun.noticeExpired else s.begun) := rfl

theorem State.noticeExpired_of_settled {s : State} (h : s.ng.settled = true) :
    s.noticeExpired = { s with ng := { settled := true, timer := none } } := by
  rw [State.noticeExpired, if_pos h, ← h]

theorem State.noticeExpired_of_unsettled {s : State} (h : s.ng.settled = false) :
    s.noticeExpired = (s.withNg { settled := false, timer := none }).announced := by
  rw [State.noticeExpired, if_neg (by simp [h]), State.emit_eq_announced, ← h]
  rfl

/-- Settles O26: a due expiry is `State.noticeExpired`, whose emission is `State.announced`. -/
theorem noticeTimerExpiryRepeatsNotice : Obligations.NoticeTimerExpiryRepeatsNotice := by
  intro s hs report confirmed notice x s1 s2
  have hannounced : s.announced = { s2.offer .c .c0 x with ng := s.announced.ng } := rfl
  refine ⟨s.noticeFrame_length, rfl, fun h => ?_, fun h hset => ?_, fun h hset => ?_, fun hset => ?_, fun h hset => ?_⟩
  · rw [exec_noticeTimerExpiry_begun, State.begun_of_served hs, if_neg (mt (isDue_iff _).1 h)]
  · rw [exec_noticeTimerExpiry_begun, State.begun_of_served hs, if_pos ((isDue_iff _).2 h), State.noticeExpired_of_settled hset]
  · intro fired
    have hfired : fired = s.withNg { settled := false, timer := none } := by rw [← hset]; rfl
    rw [exec_noticeTimerExpiry_begun, State.begun_of_served hs, if_pos ((isDue_iff _).2 h), State.noticeExpired_of_unsettled hset,
      ← hfired]
    refine ⟨rfl, ?_⟩
    rw [hfired, State.announced_withNg, hannounced]
    rfl
  · have htimer : s.announced.ng.timer = none := by rw [State.announced_noticeTimer, if_pos hset]
    refine ⟨htimer, ?_⟩
    rw [exec_noticeTimerExpiry_begun, if_neg]
    simp [htimer]
  · have hng : s.announced.ng = s.ng := by
      have htimer : s.announced.ng.timer = some 0 := by rw [State.announced_noticeTimer, if_neg (by simp [hset]), if_pos h]
      rw [show s.announced.ng = { settled := s.ng.settled, timer := s.announced.ng.timer } from rfl, htimer, ← h]
    have hbegun : s.announced.begun.ng = s.ng := by simp [hng]
    have hcu : s.announced.begun.cu = s.cu := by
      rw [← State.emit_eq_announced]
      simp
    refine ⟨by rw [hannounced, hng], _, ?_, rfl, ?_⟩
    · rw [exec_noticeTimerExpiry_begun, hbegun, if_pos ((isDue_iff _).2 h),
        State.noticeExpired_of_unsettled (by rw [hbegun]; exact hset)]
      rfl
    · rw [State.announced_noticeTimer, ← hcu]
      rfl

end Sys2Proof.Machine
end

section
/-! Admission (R152 to R159): the tests of a copy whose key holds no slot in their order, the replacement of a cyclic copy by a newer one
of its key, and the overtaken report (R160). -/

namespace Sys2Proof.Machine

/-! ## An offer by what its admission gives -/

section
variable {s : State} {p : Port} {c : Cls} {x : Entry}

theorem State.offer_of_refusal {r : Reason}
    (h : s.eqm.admitCopy (s.portJoined p) (s.portMatched p) p c x = (s.eqm, some r)) :
    s.offer p c x = s.lost r x.ingress x.frame.kind.code x.frame.srcId := by
  simp only [State.offer, h]
  rfl

theorem State.offer_of_admission {q : Eqm} (h : s.eqm.admitCopy (s.portJoined p) (s.portMatched p) p c x = (q, none)) :
    s.offer p c x = { s with eqm := q } := by
  simp only [State.offer, h]

/-- Tests 1 and 2 of R155 passed. -/
theorem Eqm.admitCopy_of_up (q : Eqm) {j m : Bool} (hj : j = true) (hm : x.frame.kind.isData = true → m = true) :
    q.admitCopy j m p c x = q.admitUp p c x := by
  have hdata : ¬ (x.frame.kind.isData && !m) = true := by
    rw [Bool.and_eq_true, Bool.not_eq_true']
    exact fun h => absurd (hm h.1) (by simp [h.2])
  rw [Eqm.admitCopy, if_neg (by simp [hj]), if_neg hdata]

end

theorem Cls.reserve_eq (c : Cls) : c.reserve = if c = .c2 ∨ c = .c3 then 96 else 0 := by cases c <;> rfl

theorem Cls.limit_eq (c : Cls) : c.limit = match c with | .c0 => 8 | .c1 => 32 | .c2 => 32 | .c3 => 48 := by cases c <;> rfl

theorem Eqm.holderFor_eq_none {q : Eqm} {p : Port} {x : Entry} (h : ∀ k, x.key = some k → q.keyFree p k) :
    q.holderFor p x = none := by
  have hnot : (q.holderFor p x).isSome = false := (q.keyHeld_eq_false_iff p x).2 h
  simpa using hnot

/-- Tests 3 to 6 of R155 for a copy whose key holds no slot, each where those before it pass. -/
theorem Eqm.admitUp_of_keyFree {q : Eqm} {p : Port} {c : Cls} {x : Entry} (h : ∀ k, x.key = some k → q.keyFree p k) :
    (c.limit ≤ (q.queue p c).length → q.admitUp p c x = (q, some .queueFull))
    ∧ ((q.queue p c).length < c.limit →
        (q.freeCells < x.cells + c.reserve → q.admitUp p c x = (q, some .poolExhausted))
        ∧ (x.cells + c.reserve ≤ q.freeCells →
            (x.key ≠ none → 64 ≤ (q.port p).slotsHeld → q.admitUp p c x = (q, some .slotExhausted))
            ∧ (x.key = none ∨ (q.port p).slotsHeld < 64 →
                q.admitUp p c x = ({ q.setQueue p c (q.queue p c ++ [x]) with freeCells := q.freeCells - x.cells }, none)))) := by
  simp only [Eqm.admitUp, Eqm.holderFor_eq_none h]
  refine ⟨fun hlen => if_pos hlen, fun hlen => ?_⟩
  rw [if_neg (Nat.not_le.2 hlen)]
  refine ⟨fun hpool => if_pos hpool, fun hpool => ?_⟩
  rw [if_neg (Nat.not_lt.2 hpool)]
  refine ⟨fun hk hs => if_pos ⟨Option.isSome_iff_ne_none.2 hk, hs⟩, fun hslot => ?_⟩
  rw [if_neg, Eqm.setQueue_freeCells]
  rintro ⟨hk, hs⟩
  rcases hslot with hn | hs'
  · simp [hn] at hk
  · exact absurd hs (Nat.not_le.2 hs')

/-- Settles O29, by the tests of R155 in their order. -/
theorem admissionTestsInOrder : Obligations.AdmissionTestsInOrder := by
  intro s p c x hfree lost up need limit held
  obtain ⟨hfull, hroom⟩ := Eqm.admitUp_of_keyFree (q := s.eqm) (p := p) (c := c) hfree
  have hlimit : c.limit = limit := c.limit_eq
  have hneed : x.cells + c.reserve = need := by rw [Cls.reserve_eq]; rfl
  rw [hlimit] at hfull hroom
  rw [hneed] at hroom
  have hup (h : up) : s.eqm.admitCopy (s.portJoined p) (s.portMatched p) p c x = s.eqm.admitUp p c x :=
    s.eqm.admitCopy_of_up h.1 h.2
  refine ⟨fun hj => ?_, fun hj hd hm => ?_, fun h hlen => ?_, fun h hlen hpool => ?_, fun h hlen hpool hk hs => ?_,
    fun h hlen hpool hslot => ?_⟩
  · exact State.offer_of_refusal (by rw [Eqm.admitCopy, hj]; rfl)
  · exact State.offer_of_refusal (by rw [Eqm.admitCopy, hj, hd, hm]; rfl)
  · exact State.offer_of_refusal ((hup h).trans (hfull hlen))
  · exact State.offer_of_refusal ((hup h).trans ((hroom hlen).1 hpool))
  · exact State.offer_of_refusal ((hup h).trans (((hroom hlen).2 hpool).1 hk hs))
  · exact State.offer_of_admission ((hup h).trans (((hroom hlen).2 hpool).2 hslot))

/-! ## The holder of a key, and its replacement -/

section
variable {k : CyclicKey} {old new : Entry} {l₁ l₂ : List Entry}

theorem find?_holder (hold : old.key = some k) (h : ∀ x ∈ l₁, x.key ≠ some k) :
    (l₁ ++ old :: l₂).find? (Entry.hasKey k) = some old := by
  have hnone : l₁.find? (Entry.hasKey k) = none := List.find?_eq_none.2 fun x hx hk => h x hx ((hasKey_iff k x).1 hk)
  rw [List.find?_append, hnone, Option.none_or, List.find?_cons_of_pos ((hasKey_iff k old).2 hold)]

theorem replaceHolder_append (hold : old.key = some k) (h : ∀ x ∈ l₁, x.key ≠ some k) :
    replaceHolder k new (l₁ ++ old :: l₂) = l₁ ++ new :: l₂ := by
  induction l₁ with
  | nil => rw [List.nil_append, replaceHolder, if_pos ((hasKey_iff k old).2 hold), List.nil_append]
  | cons x l₁ ih =>
    have hx : ¬ x.hasKey k = true := fun hk => h x (by simp) ((hasKey_iff k x).1 hk)
    rw [List.cons_append, replaceHolder, if_neg hx, ih fun y hy => h y (by simp [hy]), List.cons_append]

theorem removeHolder_append (hold : old.key = some k) (h : ∀ x ∈ l₁, x.key ≠ some k) :
    removeHolder k (l₁ ++ old :: l₂) = l₁ ++ l₂ := by
  induction l₁ with
  | nil => rw [List.nil_append, removeHolder, if_pos ((hasKey_iff k old).2 hold), List.nil_append]
  | cons x l₁ ih =>
    have hx : ¬ x.hasKey k = true := fun hk => h x (by simp) ((hasKey_iff k x).1 hk)
    rw [List.cons_append, removeHolder, if_neg hx, ih fun y hy => h y (by simp [hy]), List.cons_append]

end

/-- The one copy that holds a key is found, in whatever queue it is. -/
theorem PortQueues.holder_eq_some {x : PortQueues} {k : CyclicKey} {oc : Cls} {old : Entry}
    (hold : (x.queue oc).find? (Entry.hasKey k) = some old) (hother : ∀ c, c ≠ oc → (x.queue c).find? (Entry.hasKey k) = none) :
    x.holder k = some (oc, old) := by
  have h0 := hother .c0
  have h1 := hother .c1
  have h2 := hother .c2
  have h3 := hother .c3
  cases oc <;> simp only [PortQueues.queue, ne_eq, reduceCtorEq, not_true_eq_false, not_false_eq_true, forall_const, false_implies]
    at hold h0 h1 h2 h3 <;> simp only [PortQueues.holder, hold, h0, h1, h2]

/-- R158, R159: what holds the key is replaced. -/
theorem Eqm.admitUp_of_holder {q : Eqm} {p : Port} {c oc : Cls} {new old : Entry} {k : CyclicKey} {l₁ l₂ : List Entry}
    (hnew : new.key = some k) (hold : old.key = some k) (hqueue : q.queue p oc = l₁ ++ old :: l₂)
    (hfree : (q.setQueue p oc (l₁ ++ l₂)).keyFree p k) : q.admitUp p c new = q.replace p k oc old c new := by
  have hl₁ : ∀ x ∈ l₁, x.key ≠ some k := fun x hx => hfree oc x (by simp [hx])
  have hfind : ((q.port p).queue oc).find? (Entry.hasKey k) = some old := by
    rw [show (q.port p).queue oc = l₁ ++ old :: l₂ from hqueue, find?_holder hold hl₁]
  have hother (d : Cls) (hd : d ≠ oc) : ((q.port p).queue d).find? (Entry.hasKey k) = none := by
    refine List.find?_eq_none.2 fun x hx hk => hfree d x ?_ ((hasKey_iff k x).1 hk)
    rwa [Eqm.queue_setQueue_of_ne _ _ hd]
  have hholder : q.holderFor p new = some (k, oc, old) := by
    simp only [Eqm.holderFor, hnew, PortQueues.holder_eq_some hfind hother]
  simp only [Eqm.admitUp, hholder]

/-! ## The overtaken report -/

theorem Eqm.enterOvertaken_of_absent {q : Eqm} {k : CyclicKey} {p : Port} (h : ∀ x ∈ q.overtaken, ¬ (x.key = k ∧ x.port = p)) :
    q.enterOvertaken k p
      = if q.overtaken.length < 16 then { q with overtaken := q.overtaken ++ [{ key := k, port := p, count := 1 }] }
        else { q with overflow := true } := by
  rw [Eqm.enterOvertaken, if_neg]
  rw [List.any_eq_true]
  rintro ⟨x, hx, hfor⟩
  exact h x hx ((x.isFor_iff k p).1 hfor)

/-- The entries of other keys and ports stay. -/
theorem raise_of_absent {k : CyclicKey} {p : Port} {l : List OvertakenEntry} (h : ∀ x ∈ l, ¬ (x.key = k ∧ x.port = p)) :
    l.map (fun x => if x.isFor k p then x.raise else x) = l := by
  rw [List.map_congr_left (g := id), List.map_id]
  exact fun x hx => if_neg (mt (x.isFor_iff k p).1 (h x hx))

theorem Eqm.enterOvertaken_of_present {q : Eqm} {k : CyclicKey} {p : Port} {l₁ l₂ : List OvertakenEntry} {n : Nat}
    (hq : q.overtaken = l₁ ++ { key := k, port := p, count := n } :: l₂) (h : ∀ x ∈ l₁ ++ l₂, ¬ (x.key = k ∧ x.port = p)) :
    q.enterOvertaken k p
      = { q with overtaken := l₁ ++ { key := k, port := p, count := if n < 255 then n + 1 else n } :: l₂ } := by
  have hfor : OvertakenEntry.isFor k p { key := k, port := p, count := n } = true := (OvertakenEntry.isFor_iff ..).2 ⟨rfl, rfl⟩
  have hany : q.overtaken.any (OvertakenEntry.isFor k p) = true := List.any_eq_true.2 ⟨_, by rw [hq]; simp, hfor⟩
  rw [Eqm.enterOvertaken, if_pos hany, hq, List.map_append, List.map_cons, if_pos hfor,
    raise_of_absent fun x hx => h x (List.mem_append_left _ hx), raise_of_absent fun x hx => h x (List.mem_append_right _ hx)]
  rfl

/-- Settles O30: the holder of the key is found and replaced, and its key entered in the report. -/
theorem cyclicCopyIsReplaced : Obligations.CyclicCopyIsReplaced := by
  refine ⟨fun s p c oc new old k l₁ l₂ hj hm hnew hold hqueue hfree => ?_, fun q k p => ⟨fun h hlen => ?_,
    fun h hlen => ?_, fun l₁ l₂ n hq h => ?_⟩⟩
  · intro lost taken reserve
    have hl₁ : ∀ x ∈ l₁, x.key ≠ some k := fun x hx => hfree oc x (by simp [hx])
    have hadmit : s.eqm.admitCopy (s.portJoined p) (s.portMatched p) p c new = s.eqm.replace p k oc old c new := by
      rw [s.eqm.admitCopy_of_up hj fun _ => hm, Eqm.admitUp_of_holder hnew hold hqueue hfree]
    have hreserve : c.reserve = reserve := c.reserve_eq
    unfold Eqm.replace at hadmit
    rw [hreserve] at hadmit
    refine ⟨fun hc hroom => ?_, fun hc hcells hroom => ?_, fun hc hlen => ?_, fun hc hlen hroom => ?_, fun hc hlen hroom => ?_⟩
    · subst hc
      rw [if_pos rfl, if_pos hroom, hqueue, replaceHolder_append hold hl₁] at hadmit
      rw [State.offer_of_admission hadmit, Eqm.setQueue_freeCells]
    · rw [if_pos hc, if_neg (by omega)] at hadmit
      exact State.offer_of_refusal hadmit
    · rw [if_neg hc, if_pos hlen] at hadmit
      exact State.offer_of_refusal hadmit
    · rw [if_neg hc, if_neg (Nat.not_le.2 hlen), if_pos hroom] at hadmit
      exact State.offer_of_refusal hadmit
    · rw [if_neg hc, if_neg (Nat.not_le.2 hlen), if_neg (Nat.not_lt.2 hroom), hqueue, removeHolder_append hold hl₁] at hadmit
      simp only [Eqm.queue_setQueue_of_ne _ _ (Ne.symm hc), Eqm.setQueue_freeCells] at hadmit
      rw [State.offer_of_admission hadmit]
  · rw [Eqm.enterOvertaken_of_absent h, if_pos hlen]
  · rw [Eqm.enterOvertaken_of_absent h, if_neg (Nat.not_lt.2 hlen)]
  · exact Eqm.enterOvertaken_of_present hq h

end Sys2Proof.Machine
end

section
/-! Transmissions (R161 to R164): what the arbiter of a port takes, the starts that a command finds made, and the completion. -/

namespace Sys2Proof.Machine

/-! ## Completions -/

/-- The start of an item leaves its port sending. -/
theorem State.arbitrate_sends {s : State} {p : Port} {x : Pick} (ht : (s.eqm.port p).tx = none) (hx : s.pick p = some x) :
    ((s.arbitrate p).eqm.port p).tx ≠ none := by
  have hidle : ¬ (s.eqm.port p).tx.isSome = true := by simp [ht]
  simp only [State.arbitrate, if_neg hidle, hx]
  cases x <;> simp [State.begin, Eqm.send_port]

/-- A port that was idle with something eligible sends once the starts that are due are made. -/
theorem State.begun_sends {s : State} {p : Port} {x : Pick} (ht : (s.eqm.port p).tx = none) (hx : s.pick p = some x) :
    (s.begun.eqm.port p).tx ≠ none := by
  have later {u : State} {q : Port} (hq : p ≠ q) (h : (u.eqm.port p).tx ≠ none) : ((u.arbitrate q).eqm.port p).tx ≠ none := by
    rwa [(u.arbitrate_other hq).1]
  have earlier {u : State} {q : Port} (hq : p ≠ q) (h : (u.eqm.port p).tx = none ∧ u.pick p = some x) :
      ((u.arbitrate q).eqm.port p).tx = none ∧ (u.arbitrate q).pick p = some x := by
    obtain ⟨hport, hpick⟩ := u.arbitrate_other hq
    rwa [hport, hpick]
  unfold State.begun
  cases p with
  | a => exact later (by decide) (later (by decide) (State.arbitrate_sends ht hx))
  | b =>
    obtain ⟨ht', hx'⟩ := earlier (q := .a) (by decide) ⟨ht, hx⟩
    exact later (by decide) (State.arbitrate_sends ht' hx')
  | c =>
    obtain ⟨ht', hx'⟩ := earlier (q := .b) (by decide) (earlier (q := .a) (by decide) ⟨ht, hx⟩)
    exact State.arbitrate_sends ht' hx'

theorem exec_transmissionCompletion (p : Port) (s : State) :
    exec (.transmissionCompletion p) s
      = .next (if (s.eqm.port p).tx.isSome then s.begun.completed p else s.begun) := rfl

/-- R164: the port is idle and the cells of the item go back to the pool. -/
theorem State.completed_of_sending {s : State} {p : Port} {t : Tx} (h : (s.eqm.port p).tx = some t)
    (hs : ∀ c e, t.item = .queued c e → e.sleepResponse = false) :
    s.completed p = { s with eqm := { s.eqm.setPort p { s.eqm.port p with tx := none } with
                                      freeCells := s.eqm.freeCells + t.item.cells } } := by
  simp only [State.completed, h, Eqm.setPort_freeCells]
  split
  · rename_i c e hitem
    rw [if_neg (by simp [hs c e hitem])]
  · rfl
  · rfl

/-- R48: the response with the sleep-response flag puts the part to sleep, whatever cells it gave back. -/
theorem State.completed_slept {s : State} {p : Port} {c : Cls} {e : Entry} {b : List Byte}
    (h : (s.eqm.port p).tx = some { item := .queued c e, bytes := b }) (hs : e.sleepResponse = true) : Slept s (s.completed p) := by
  have hcompleted : s.completed p
      = ({ s with eqm := { s.eqm.setPort p { s.eqm.port p with tx := none } with
                           freeCells := s.eqm.freeCells + e.cells } } : State).enterDormant := by
    simp only [State.completed, h, Eqm.setPort_freeCells, hs, if_true, TxItem.cells]
  obtain ⟨hstate, hactive, hprior, hgrace, hjudged, htimer⟩ := State.enterDormant_slept
    ({ s with eqm := { s.eqm.setPort p { s.eqm.port p with tx := none } with freeCells := s.eqm.freeCells + e.cells } } : State)
  rw [hcompleted]
  refine ⟨hstate.trans ?_, hactive, hprior, hgrace, hjudged, htimer⟩
  simp

/-- Settles O28. -/
theorem completionReturnsCells : Obligations.CompletionReturnsCells := by
  refine ⟨fun p s ht => ?_, fun p s hs => ?_⟩
  · have hrun : exec (.transmissionCompletion p) s = .next s.begun := by
      rw [exec_transmissionCompletion, if_neg (by simp [ht])]
    exact ⟨hrun, fun hs => by rw [hrun, State.begun_of_served hs], fun x hx => State.begun_sends ht hx⟩
  · intro run freed
    have hrun {t : Tx} (ht : (s.eqm.port p).tx = some t) : run = .next (s.completed p) := by
      show exec (.transmissionCompletion p) s = _
      rw [exec_transmissionCompletion, if_pos (by simp [ht]), State.begun_of_served hs]
    refine ⟨fun b ht => ?_, fun c x b ht => ⟨fun hx => ?_, fun hx => ⟨_, hrun ht, State.completed_slept ht hx⟩⟩⟩
    · rcases ht with ht | ht
      all_goals
        rw [hrun ht, State.completed_of_sending ht (by simp)]
        rfl
    · rw [hrun ht, State.completed_of_sending ht (by simpa using hx)]
      rfl

/-! ## What the arbiter takes -/

section
variable {s : State} {p : Port}

/-- The starts that are due are made once. -/
theorem State.runs_begun (s : State) (f : State → State) : s.begun.runs f = s.runs f := by
  rw [State.runs, State.begun_begun, State.runs]

/-- A command other than a start finds the starts that are due made (R161). -/
theorem exec_begun {i : Instr} (hstart : ∀ p, i ≠ .transmissionStart p)
    (hdone : ∀ p, i = .transmissionCompletion p → (s.eqm.port p).tx ≠ none) : exec i s = exec i s.begun := by
  cases i with
  | transmissionStart p => exact absurd rfl (hstart p)
  | transmissionCompletion p =>
    have hsome : (s.eqm.port p).tx.isSome = true := Option.isSome_iff_ne_none.2 (hdone p rfl)
    rw [exec_transmissionCompletion, exec_transmissionCompletion, State.begun_port_of_sending hsome, State.begun_begun]
  | powerOnReset =>
    rw [exec_powerOnReset, exec_powerOnReset]
    simp [State.poweredOn]
  | _ =>
    simp only [exec, execPresenceAssertion, execPresenceNegation, execWakeInAssertion, execArrivalOnCouplerPort, execArrivalOnPortC,
      execDormantArrival, execSettleExpiry, execGreetExpiry, execAnswerLimitReached, execSilenceLimitReached,
      execFadeExpiry, execRouseExpiry, execRouseBurstReached, execNoticeTimerExpiry, execBlockFoldCompletion,
      execFinishCompletion, execStagingTimerExpiry, execGraceTimerExpiry, execSetIdentity, execSleep, execReleaseWake,
      execRestart, execReadState, execReadStateClear, execReadRoster, execReadCapture, execReadOvertaken, execRuleRead,
      execLoadBeginFresh, execLoadBeginExtend, execLoadRecords, execConfirm, execDiscard, execEnact, execRuleWrite,
      execHold, execRelease, execSetTiming, execSetClass, execUnknownCommand, execWakeInNegation, State.runs_begun]

theorem Cls.mayServe_iff (s : State) (p : Port) (c : Cls) :
    s.mayServe p c = true ↔ s.portJoined p = true ∧ (c ≠ .c0 → s.portMatched p = true) ∧ s.eqm.hold.mem c = false := by
  cases c <;> simp [State.mayServe, ClassSet.mem, and_assoc]

/-- The first class with an eligible front frame is served. -/
theorem State.queuePick_of_first {pre post : List Cls} {c : Cls} {x : Entry} {rest : List Entry} (hc : s.mayServe p c = true)
    (hx : s.eqm.queue p c = x :: rest) (h : ∀ d ∈ pre, s.mayServe p d = true → s.eqm.queue p d = []) :
    s.queuePick p (pre ++ c :: post) = some (.front c x) := by
  induction pre with
  | nil => simp only [List.nil_append, State.queuePick, hc, hx]
  | cons d pre ih =>
    have hd := h d (by simp)
    have ih := ih fun d' hd' => h d' (by simp [hd'])
    rw [List.cons_append]
    unfold State.queuePick
    split
    · rename_i y l hserve hqueue
      simp [hd hserve] at hqueue
    · exact ih

theorem State.queuePick_of_none {l : List Cls} (h : ∀ d ∈ l, s.mayServe p d = true → s.eqm.queue p d = []) : s.queuePick p l = none := by
  induction l with
  | nil => rfl
  | cons d l ih =>
    have hd := h d (by simp)
    unfold State.queuePick
    split
    · rename_i y m hserve hqueue
      simp [hd hserve] at hqueue
    · exact ih fun d' hd' => h d' (by simp [hd'])

theorem LinkState.servesSlot_iff (l : LinkState) : l.servesSlot = true ↔ l = .greeting ∨ l = .mute ∨ l.isJoined = true := by
  cases l <;> simp [LinkState.servesSlot, LinkState.isJoined]

theorem State.slotPick_toPort (s : State) (e : End) :
    s.slotPick (End.toPort e)
      = if (s.clm e).link.servesSlot then
          if (s.clm e).slot.rouse then some (.rouse e) else if (s.clm e).slot.greet then some (.greet e) else none
        else none := by
  cases e <;> rfl

theorem State.slotPick_eq_none (h : ¬ ∃ e, p = End.toPort e ∧ ((s.clm e).slot.rouse = true ∨ (s.clm e).slot.greet = true)
    ∧ ((s.clm e).link = .greeting ∨ (s.clm e).link = .mute ∨ (s.clm e).link.isJoined = true)) : s.slotPick p = none := by
  have hend (e : End) (hp : p = End.toPort e) : s.slotPick p = none := by
    rw [hp, State.slotPick_toPort]
    split
    · rename_i hserves
      have hslot : ¬ ((s.clm e).slot.rouse = true ∨ (s.clm e).slot.greet = true) := fun hslot =>
        h ⟨e, hp, hslot, (LinkState.servesSlot_iff _).1 hserves⟩
      obtain ⟨hr, hg⟩ := not_or.1 hslot
      rw [if_neg hr, if_neg hg]
    · rfl
  cases p with
  | a => exact hend .a rfl
  | b => exact hend .b rfl
  | c => rfl

theorem State.pick_of_slot {x : Pick} (ha : s.power = .active) (h : s.slotPick p = some x) : s.pick p = some x := by
  rw [State.pick, if_neg (by simp [ha]), h]

theorem State.pick_of_queue (ha : s.power = .active) (h : s.slotPick p = none) :
    s.pick p = s.queuePick p [.c0, .c1, .c2, .c3] := by
  rw [State.pick, if_neg (by simp [ha]), h]

theorem State.arbitrate_of_pick {x : Pick} (ht : (s.eqm.port p).tx = none) (h : s.pick p = some x) :
    s.arbitrate p = s.begin p x := by
  rw [State.arbitrate, if_neg (by simp [ht]), h]

theorem State.arbitrate_of_no_pick (h : s.pick p = none) : s.arbitrate p = s := State.arbitrate_of_served fun _ => h

end

/-- R25: the heard identity and end of a GREET. -/
theorem Clm.heard_bytes (c : Clm) :
    Word.bytes c.heard.1 ++ [c.heard.2]
      = if c.link.isJoined then
          (match c.neighbour with | some n => Word.bytes n.identity ++ [n.endCode] | none => [0, 0, 0, 0, 0])
        else (match c.candidate with | some n => Word.bytes n.identity ++ [n.endCode] | none => [0, 0, 0, 0, 0]) := by
  have hzero : Word.bytes 0 ++ [0] = [0, 0, 0, 0, 0] := by decide
  unfold Clm.heard
  split
  · cases c.neighbour with
    | none => exact hzero
    | some n => rfl
  · cases c.candidate with
    | none => exact hzero
    | some n => rfl

/-- The classes before a class in the strict order of R161. -/
def Cls.before : Cls → List Cls
  | .c0 => []
  | .c1 => [.c0]
  | .c2 => [.c0, .c1]
  | .c3 => [.c0, .c1, .c2]

/-- The classes after a class in the strict order of R161. -/
def Cls.after : Cls → List Cls
  | .c0 => [.c1, .c2, .c3]
  | .c1 => [.c2, .c3]
  | .c2 => [.c3]
  | .c3 => []

theorem Cls.before_after (c : Cls) : c.before ++ c :: c.after = [.c0, .c1, .c2, .c3] := by cases c <;> rfl

theorem Cls.mem_before {c d : Cls} (h : d ∈ c.before) :
    (d = .c0 ∧ c ≠ .c0) ∨ (d = .c1 ∧ (c = .c2 ∨ c = .c3)) ∨ (d = .c2 ∧ c = .c3) := by
  cases c <;> simp [Cls.before] at h <;> simp [h]

theorem exec_transmissionStart (p : Port) (s : State) : exec (.transmissionStart p) s = .next (s.arbitrate p) := rfl

/-- Settles O27: `State.pick` takes the slot before the queues, and the queues in the order of their classes. -/
theorem transmissionTakesFirstEligibleItem : Obligations.TransmissionTakesFirstEligibleItem := by
  refine ⟨fun p s => ?_, fun s u v w hu hv hw => ?_⟩
  · intro run eligible slotted send built rouse heard greet
    have hserve (c : Cls) : s.mayServe p c = true ↔ eligible c := Cls.mayServe_iff s p c
    have hrun : run = .next (s.arbitrate p) := exec_transmissionStart p s
    rw [hrun]
    refine ⟨fun h => ?_, fun ht ha => ⟨fun e hp hl => ?_, fun hslot => ⟨fun c x rest hc hq hfirst => ?_, fun hnone => ?_⟩⟩⟩
    · rw [State.arbitrate_of_served]
      rcases h with h | h
      · exact fun hn => absurd hn h
      · exact State.served_of_dormant h p
    · have hpick := s.slotPick_toPort e
      rw [if_pos ((LinkState.servesSlot_iff _).2 hl), ← hp] at hpick
      refine ⟨fun hr => ?_, fun hr hg => ?_⟩
      · rw [if_pos hr] at hpick
        rw [State.arbitrate_of_pick ht (State.pick_of_slot ha hpick)]
        rfl
      · rw [if_neg (by simp [hr]), if_pos hg] at hpick
        have hgreet : s.buildGreet e = greet e := by
          have hbody : Word.bytes s.ownId ++ [End.code e] ++ Half.bytes s.ru.active.generation ++ Word.bytes (s.clm e).heard.1
              ++ [(s.clm e).heard.2]
              = Word.bytes s.ownId ++ [End.code e] ++ Half.bytes s.ru.active.generation ++ heard (s.clm e) := by
            rw [List.append_assoc _ (Word.bytes _) [_]]
            exact congrArg _ (Clm.heard_bytes _)
          rw [State.buildGreet, hbody]
          rfl
        rw [State.arbitrate_of_pick ht (State.pick_of_slot ha hpick), State.begin, hgreet]
        rfl
    · have hpick : s.pick p = some (.front c x) := by
        rw [State.pick_of_queue ha (State.slotPick_eq_none hslot), ← c.before_after]
        refine State.queuePick_of_first ((hserve c).2 hc) hq fun d hd hd' => ?_
        exact (hfirst d (Cls.mem_before hd)).resolve_left (not_not_intro ((hserve d).1 hd'))
      have hline : x.lineFrame p = { x.frame with hop := if p = Port.c then x.frame.hop else x.frame.hop - 1 } := by
        unfold Entry.lineFrame
        split <;> rfl
      rw [State.arbitrate_of_pick ht hpick, State.begin, hq, hline]
      rfl
    · rw [State.arbitrate_of_no_pick]
      rw [State.pick_of_queue ha (State.slotPick_eq_none hslot)]
      exact State.queuePick_of_none fun d _ hd => (hnone d).resolve_left (not_not_intro ((hserve d).1 hd))
  · rw [exec_transmissionStart] at hu hv hw
    cases hu
    cases hv
    cases hw
    exact ⟨rfl, s.served_begun, State.begun_of_served, fun c hstart hdone => exec_begun hstart hdone⟩

end Sys2Proof.Machine
end

section
/-! Frames as bytes (R1, R9, R10) and the classification of data frames (R140, R141, R146). -/

namespace Sys2Proof.Machine

/-! ## Frames read back -/

theorem kindOfCode_code (k : Kind) : kindOfCode k.code = some k := by cases k <;> rfl

theorem code_of_kindOfCode {b : Byte} {k : Kind} (h : kindOfCode b = some k) : k.code = b := by
  unfold kindOfCode at h
  repeat' split at h
  all_goals cases h
  all_goals exact Eq.symm (by assumption)

/-- The bytes of a list are those at its offsets. -/
theorem take_eq_map_byteAt {l : List Byte} {n : Nat} (h : n ≤ l.length) : l.take n = (List.range n).map (byteAt l) := by
  apply List.ext_getElem
  · rw [List.length_take, List.length_map, List.length_range, Nat.min_eq_left h]
  · intro i hi _
    have hi : i < l.length := by simp at hi; omega
    simp [byteAt, hi]

section
variable (f : Frame)

theorem Frame.header_length : f.header.length = 16 := rfl

theorem Frame.body_length : f.body.length = f.payload.length + 16 := by
  rw [Frame.body, List.length_append, Frame.header_length, Nat.add_comm]

theorem Frame.wire_length : f.wire.length = f.payload.length + 20 := by
  rw [Frame.wire, List.length_append, Frame.body_length]
  rfl

theorem Frame.wire_take : f.wire.take (f.wire.length - 4) = f.body := by
  have hlen : f.wire.length - 4 = f.body.length := by rw [Frame.wire_length, Frame.body_length]; omega
  rw [hlen, Frame.wire, List.take_left]

theorem Frame.wire_check : wordAt f.wire (f.wire.length - 4) = checkWord f.body := by
  have hlen : f.wire.length - 4 = f.body.length + 0 := by rw [Frame.wire_length, Frame.body_length]; omega
  rw [hlen, ← wordAt_drop, Frame.wire, List.drop_left, wordAt_bytes]

end

/-- R10: a sent frame passes the tests of R9 and is read as it was. -/
theorem parseFrame_wire {f : Frame} (h : f.payload.length ≤ 1000) : parseFrame f.wire = some f := by
  have hfield : (halfAt f.wire 14).toNat = f.payload.length := by
    have hhalf : halfAt f.wire 14 = BitVec.ofNat 16 f.payload.length := halfAt_bytes _
    rw [hhalf, BitVec.toNat_ofNat, Nat.mod_eq_of_lt (by omega)]
  have hlengths : lengthsAgree f.wire = true := by
    simp only [lengthsAgree, hfield, Frame.wire_length, Bool.and_eq_true, decide_eq_true_eq, beq_iff_eq]
    exact ⟨⟨Nat.le_add_left 20 _, Nat.add_le_add_right h 20⟩, trivial⟩
  have hcheck : checkAgrees f.wire = true := by rw [checkAgrees, Frame.wire_take, Frame.wire_check, beq_self_eq_true]
  have hkind : kindOfCode (byteAt f.wire 0) = some f.kind := kindOfCode_code f.kind
  have hgeneration : halfAt f.wire 2 = f.generation := halfAt_bytes _
  have hsource : wordAt f.wire 8 = f.srcId := wordAt_bytes _
  have htag : halfAt f.wire 12 = f.tag := halfAt_bytes _
  have hpayload : (f.wire.take (f.wire.length - 4)).drop 16 = f.payload := by
    rw [Frame.wire_take, Frame.body, ← f.header_length, List.drop_left]
  simp only [parseFrame, hlengths, hcheck, hkind, hgeneration, hsource, htag, hpayload]
  rfl

/-- What the tests of R9 let through. -/
theorem parseFrame_eq_some {bytes : List Byte} {f : Frame} (h : parseFrame bytes = some f) :
    20 ≤ bytes.length ∧ bytes.length ≤ 1020 ∧ (halfAt bytes 14).toNat + 20 = bytes.length
      ∧ checkWord (bytes.take (bytes.length - 4)) = wordAt bytes (bytes.length - 4)
      ∧ kindOfCode (byteAt bytes 0) = some f.kind
      ∧ f = { kind := f.kind, hop := byteAt bytes 1, generation := halfAt bytes 2, dstPos := byteAt bytes 4, dstDev := byteAt bytes 5,
              srcPos := byteAt bytes 6, srcDev := byteAt bytes 7, srcId := wordAt bytes 8, tag := halfAt bytes 12,
              payload := (bytes.take (bytes.length - 4)).drop 16 } := by
  unfold parseFrame at h
  split at h
  · cases h
  · rename_i hlengths
    split at h
    · cases h
    · rename_i hcheck
      split at h
      · cases h
      · rename_i k hk
        cases h
        simp only [lengthsAgree, Bool.not_eq_true', Bool.not_eq_false, Bool.and_eq_true, decide_eq_true_eq, beq_iff_eq] at hlengths
        simp only [checkAgrees, Bool.not_eq_true', Bool.not_eq_false, beq_iff_eq] at hcheck
        obtain ⟨⟨hlow, hhigh⟩, hfield⟩ := hlengths
        exact ⟨hlow, hhigh, hfield, hcheck, hk, rfl⟩

/-- The header of a parsed frame is the header as it came in. -/
theorem header_of_parseFrame {bytes : List Byte} {f : Frame} (h : parseFrame bytes = some f) : f.header = bytes.take 16 := by
  obtain ⟨hlow, -, hfield, -, hk, hf⟩ := parseFrame_eq_some h
  have hlength : natHalf f.payload.length = Half.bytes (halfAt bytes 14) := by
    have hlen : f.payload.length = (halfAt bytes 14).toNat := by
      rw [hf]
      simp only [List.length_drop, List.length_take]
      omega
    rw [hlen, natHalf, BitVec.ofNat_toNat, BitVec.setWidth_eq]
  rw [take_eq_map_byteAt (by omega), Frame.header, hlength, code_of_kindOfCode hk, hf]
  simp only [bytes_halfAt, bytes_wordAt]
  rfl

/-- Settles O6: the header is its fields at their offsets, and the last four bytes the check word of the rest. -/
theorem framesReadBackWhole : Obligations.FramesReadBackWhole := by
  refine ⟨fun f h => ⟨f.wire_length, parseFrame_wire h⟩, fun bytes f h => ?_⟩
  obtain ⟨hlow, hhigh, -, hcheck, -, hf⟩ := parseFrame_eq_some h
  have hpayload : f.payload = (bytes.take (bytes.length - 4)).drop 16 := by rw [hf]
  have hbody : f.body = bytes.take (bytes.length - 4) := by
    have hhead : bytes.take 16 = (bytes.take (bytes.length - 4)).take 16 := by
      rw [List.take_take, Nat.min_eq_left (by omega)]
    rw [Frame.body, header_of_parseFrame h, hpayload, hhead, List.take_append_drop]
  have htail : Word.bytes (wordAt bytes (bytes.length - 4)) = bytes.drop (bytes.length - 4) := by
    have hlen : (bytes.drop (bytes.length - 4)).length = 4 := by rw [List.length_drop]; omega
    rw [← List.take_of_length_le (Nat.le_of_eq hlen), take_eq_map_byteAt (Nat.le_of_eq hlen.symm), bytes_wordAt]
    simp only [funext (byteAt_drop bytes (bytes.length - 4))]
    rfl
  refine ⟨?_, ?_⟩
  · rw [Frame.wire, hbody, hcheck, htail, List.take_append_drop]
  · rw [hpayload, List.length_drop, List.length_take]
    omega

/-! ## Classification -/

section
variable {r : Rule} {p : Port} {f : Frame}

theorem Rule.hasKind_iff : r.hasKind f.kind = true ↔ (f.kind = .process ∧ r.kindProcess = true)
    ∨ (f.kind = .message ∧ r.kindMessage = true) ∨ (f.kind = .bulk ∧ r.kindBulk = true) := by
  cases f.kind <;> simp [Rule.hasKind]

theorem Rule.hasPort_iff : r.hasPort p = true ↔ (p = .a ∧ r.portA = true) ∨ (p = .b ∧ r.portB = true) ∨ (p = .c ∧ r.portC = true) := by
  cases p <;> simp [Rule.hasPort]

theorem Rule.bytesMatch_iff : r.bytesMatch f.body = true ↔ ∀ i, i < 32 → r.mask.getLsbD i = true →
    i < 16 + f.payload.length ∧ byteAt (f.header ++ f.payload) i = byteAt r.values i := by
  simp only [Rule.bytesMatch, List.all_eq_true, List.mem_range, Frame.body, List.length_append, Frame.header_length]
  refine forall₂_congr fun i _ => ?_
  cases r.mask.getLsbD i <;> simp

/-- R140: the five tests of a rule. -/
theorem Rule.isMatch_iff : r.isMatch p f = true ↔
    r.enabled = true
      ∧ ((f.kind = .process ∧ r.kindProcess = true) ∨ (f.kind = .message ∧ r.kindMessage = true)
          ∨ (f.kind = .bulk ∧ r.kindBulk = true))
      ∧ ((p = .a ∧ r.portA = true) ∨ (p = .b ∧ r.portB = true) ∨ (p = .c ∧ r.portC = true))
      ∧ r.minLength ≤ f.payload.length + 20
      ∧ ∀ i, i < 32 → r.mask.getLsbD i = true →
          i < 16 + f.payload.length ∧ byteAt (f.header ++ f.payload) i = byteAt r.values i := by
  rw [Rule.isMatch, Bool.and_eq_true, Bool.and_eq_true, Bool.and_eq_true, Bool.and_eq_true, Rule.hasKind_iff, Rule.hasPort_iff,
    Rule.bytesMatch_iff, decide_eq_true_eq, Frame.length]
  simp only [and_assoc]

end

theorem ClassMatcher.classify_of_first {m : ClassMatcher} {p : Port} {f : Frame} {i : Nat} {r : Rule} (hr : m.rules[i]? = some r)
    (hm : r.isMatch p f = true) (hfirst : ∀ (j : Nat) (q : Rule), j < i → m.rules[j]? = some q → ¬ q.isMatch p f = true) :
    m.classify p f = r.outcome := by
  have hfind : m.rules.find? (fun x => x.isMatch p f) = some r := by
    obtain ⟨hi, hri⟩ := List.getElem?_eq_some_iff.1 hr
    refine List.find?_eq_some_iff_getElem.2 ⟨hm, i, hi, hri, fun j hj => ?_⟩
    exact by
      simpa using hfirst j _ hj (List.getElem?_eq_getElem (Nat.lt_trans hj hi))
  simp only [ClassMatcher.classify, hfind]

theorem ClassMatcher.classify_of_none {m : ClassMatcher} {p : Port} {f : Frame} (h : ∀ r ∈ m.rules, ¬ r.isMatch p f = true) :
    m.classify p f = defaultOutcome f.kind := by
  have hfind : m.rules.find? (fun x => x.isMatch p f) = none := List.find?_eq_none.2 h
  simp only [ClassMatcher.classify, hfind]

/-- Settles O18. -/
theorem firstMatchingRuleClassifies : Obligations.FirstMatchingRuleClassifies := by
  intro m p f matchesFrame
  have hmatch (r : Rule) : r.isMatch p f = true ↔ matchesFrame r := Rule.isMatch_iff
  refine ⟨fun i r hr hm hfirst => ?_, fun hnone => ?_⟩
  · exact ClassMatcher.classify_of_first hr ((hmatch r).2 hm) fun j q hj hq hm' => hfirst j q hj hq ((hmatch q).1 hm')
  · rw [ClassMatcher.classify_of_none fun r hr hm => hnone r hr ((hmatch r).1 hm)]
    exact ⟨fun h => by rw [h]; rfl, fun h => by rw [h]; rfl, fun h => by rw [h]; rfl⟩

end Sys2Proof.Machine
end

section
/-! The reads of rosters, of the overtaken report and of the rule table (R147, R149, R184, R186). -/

namespace Sys2Proof.Machine

/-! ## READ-ROSTER -/

theorem State.cmdReadRoster_of_selected {s : State} {r : Request} {sel first count : Byte} {g : Half} {rs : List Record}
    (hparams : r.params = [sel, first, count]) (hsel : s.selectRoster sel = some (g, rs)) (h : 1 ≤ first.toNat ∧ first.toNat ≤ 24)
    (h' : 1 ≤ count.toNat ∧ count.toNat ≤ 24) :
    s.cmdReadRoster r = s.respond r 0x11 .done
      ([sel] ++ Half.bytes g ++ [natByte rs.length]
        ++ recordImages (rs.filter (fun x => decide (first.toNat ≤ x.position ∧ x.position < first.toNat + count.toNat)))) := by
  have hrange : (inRosterRange first && inRosterRange count) = true := by simp [inRosterRange, h, h']
  have hfilter : (fun x : Record => decide (first.toNat ≤ x.position ∧ x.position < first.toNat + count.toNat))
      = fun x => decide (first.toNat ≤ x.position) && decide (x.position < first.toNat + count.toNat) :=
    funext fun x => Bool.decide_and _ _
  simp only [State.cmdReadRoster, hparams, hsel, hrange, if_true, hfilter]
  rfl

section
variable (s : State)

theorem State.selectRoster_active : s.selectRoster 0x01 = some (s.ru.active.generation, s.ru.active.records) := rfl

theorem State.selectRoster_prior : s.selectRoster 0x02
    = some (match s.ru.prior with | some p => (p.generation, p.records) | none => (0, [])) := by
  cases h : s.ru.prior <;> simp [State.selectRoster, h]

theorem State.selectRoster_staging : s.selectRoster 0x03
    = some (match s.su.staging with
        | .empty => (0, [])
        | .filling b => (0, b.records)
        | .confirming b t => (t.generation, b.records)
        | .confirmed b c => (c.generation, b.records)) := by
  cases h : s.su.staging <;> simp [State.selectRoster, h]

end

/-! ## Rule images -/

theorem flagByte_bit (b : Bool) : flagByte b = natByte b.toNat := by cases b <;> rfl

/-- Three flags as bits 0 to 2 of a byte. -/
theorem three_flags (x y z : Bool) : (if x then 0x01#8 else 0) ||| (if y then 0x02#8 else 0) ||| (if z then 0x04#8 else 0)
    = natByte (x.toNat + 2 * y.toNat + 4 * z.toNat) := by
  cases x <;> cases y <;> cases z <;> rfl

/-- The outcome byte: the class in bits 0 and 1 and three flags above it. -/
theorem outcome_byte (c : DataClass) (x y z : Bool) :
    DataClass.code c ||| (if x then 0x04#8 else 0) ||| (if y then 0x08#8 else 0) ||| (if z then 0x10#8 else 0)
      = natByte ((match c with | .c1 => 1 | .c2 => 2 | .c3 => 3) + 4 * x.toNat + 8 * y.toNat + 16 * z.toNat) := by
  cases c <;> cases x <;> cases y <;> cases z <;> rfl

section
variable (r : Rule)

theorem Rule.image_length : r.image.length = 10 + r.values.length := by
  simp [Rule.image, natHalf, Half.bytes, Word.bytes]
  omega

theorem Rule.image_enabled : byteAt r.image 0 = natByte r.enabled.toNat := flagByte_bit _

theorem Rule.image_kinds : byteAt r.image 1 = natByte (r.kindProcess.toNat + 2 * r.kindMessage.toNat + 4 * r.kindBulk.toNat) :=
  three_flags _ _ _

theorem Rule.image_ports : byteAt r.image 2 = natByte (r.portA.toNat + 2 * r.portB.toNat + 4 * r.portC.toNat) := three_flags _ _ _

theorem Rule.image_minLength : halfAt r.image 4 = BitVec.ofNat 16 r.minLength := halfAt_bytes _

theorem Rule.image_mask : wordAt r.image 6 = r.mask := wordAt_bytes _

theorem Rule.image_values : r.image.drop 10 = r.values := rfl

end

section
variable {p : List Byte}

theorem flagByte_getLsbD : ∀ b : Byte, flagByte (b.getLsbD 0) = b &&& 0x01 := by decide +kernel

theorem three_flags_getLsbD : ∀ b : Byte,
    (if b.getLsbD 0 then 0x01#8 else 0) ||| (if b.getLsbD 1 then 0x02#8 else 0) ||| (if b.getLsbD 2 then 0x04#8 else 0) = b &&& 0x07 := by
  decide +kernel

/-- The outcome byte of a rule, but for its reserved bits, is the one it was read from. -/
theorem outcome_byte_getLsbD : ∀ o : Byte, o &&& 0x03#8 ≠ 0 →
    DataClass.code (if o &&& 0x03#8 = 0x01 then .c1 else if o &&& 0x03#8 = 0x02 then .c2 else .c3)
      ||| (if o.getLsbD 2 then 0x04#8 else 0) ||| (if o.getLsbD 3 then 0x08#8 else 0) ||| (if o.getLsbD 4 then 0x10#8 else 0)
      = o &&& 0x1F := by
  decide +kernel

/-- The image of a written rule is its parameter field with the reserved bits 0. -/
theorem image_writtenRule (h : ¬ badParams .ruleWrite p) :
    (writtenRule p).image
      = [byteAt p 1 &&& 0x01, byteAt p 2 &&& 0x07, byteAt p 3 &&& 0x07, byteAt p 4 &&& 0x1F] ++ p.drop 5 := by
  simp only [badParams, not_or, Classical.not_not, Nat.not_lt] at h
  obtain ⟨hlen, -, hclass, -, -⟩ := h
  have hmin : natHalf (halfAt p 5).toNat = [byteAt p 5, byteAt p 6] := by
    rw [natHalf, BitVec.ofNat_toNat, BitVec.setWidth_eq, bytes_halfAt]
  have htail : p.drop 5 = [byteAt p 5, byteAt p 6] ++ [byteAt p 7, byteAt p 8, byteAt p 9, byteAt p 10] ++ p.drop 11 := by
    have hsix := take_drop_six (l := p) (i := 5) (by omega)
    rw [← List.take_append_drop 6 (p.drop 5), hsix, List.drop_drop]
    rfl
  have hmask : Word.bytes (wordAt p 7) = [byteAt p 7, byteAt p 8, byteAt p 9, byteAt p 10] := bytes_wordAt p 7
  rw [htail, ← hmin, ← hmask, ← flagByte_getLsbD, ← three_flags_getLsbD (byteAt p 2), ← three_flags_getLsbD (byteAt p 3),
    ← outcome_byte_getLsbD _ hclass]
  rfl

end

theorem State.cmdRuleRead_of_rule {s : State} {r : Request} {i : Byte} {x : Rule} (hparams : r.params = [i])
    (hx : s.cm.rules[i.toNat]? = some x) :
    s.cmdRuleRead r
      = s.respond r 0x14 .done ([i] ++ x.image ++ [s.cm.policy1.code, s.cm.policy2.code, s.cm.policy3.code]) := by
  simp only [State.cmdRuleRead, hparams, hx]
  rfl

/-- Settles O40: each selector names one roster, and the image of a written rule is its parameter field. -/
theorem readsOfRosterReportAndRules : Obligations.ReadsOfRosterReportAndRules := by
  refine ⟨fun r s sel first count hs hp hparams h1 h2 h3 h4 => ?_, fun r s hs hp hparams => ?_, fun r s i x hs hp hparams hx => ?_,
    fun x hvalues hmin => ?_, fun r q s hs hp hgood hrules hparams => ?_⟩
  · intro answered
    have hanswered {g : Half} {rs : List Record} (h : s.selectRoster sel = some (g, rs)) : answered g rs := by
      show exec (.readRoster r) s = _
      rw [exec_of_passes rfl hs hp]
      exact congrArg _ (State.cmdReadRoster_of_selected hparams h ⟨h1, h2⟩ ⟨h3, h4⟩)
    refine ⟨fun h => hanswered ?_, fun h p hprior => hanswered ?_, fun h hprior => hanswered ?_, fun h hst => hanswered ?_,
      fun h b hst => hanswered ?_, fun h b t hst => hanswered ?_, fun h b c hst => hanswered ?_⟩
    · rw [h, State.selectRoster_active]
    · rw [h, State.selectRoster_prior, hprior]
    · rw [h, State.selectRoster_prior, hprior]
    all_goals rw [h, State.selectRoster_staging, hst]
  · rw [exec_of_passes rfl hs hp]
    exact congrArg _ (if_pos hparams)
  · rw [exec_of_passes rfl hs hp]
    exact congrArg _ (State.cmdRuleRead_of_rule hparams hx)
  · intro cls
    refine ⟨by rw [Rule.image_length, hvalues], Rule.image_enabled x, Rule.image_kinds x, Rule.image_ports x, ?_, ?_,
      Rule.image_mask x, Rule.image_values x⟩
    · exact outcome_byte _ _ _ _
    · rw [Rule.image_minLength, BitVec.toNat_ofNat, Nat.mod_eq_of_lt hmin]
  · refine ⟨_, by rw [exec_of_passes rfl hs hp, State.runCommand, State.cmdRuleWrite_of_goodParams hgood], fun hq => ?_⟩
    have hindex : (byteAt r.params 0).toNat < s.cm.rules.length := by
      simp only [badParams, not_or, Nat.not_lt] at hgood
      omega
    rw [exec_of_passes_begun rfl hq]
    refine congrArg _ ((State.cmdRuleRead_of_rule hparams (x := writtenRule r.params) ?_).trans ?_)
    · simp [hindex]
    · rw [image_writtenRule hgood]
      simp

end Sys2Proof.Machine
end

section
/-! READ-STATE (R182, R183): the segments of the result data, each at its offset of the table of R183. -/

namespace Sys2Proof.Machine

/-! ## Segments of a byte list -/

/-- The bytes `x` stand in `d` from offset `k` on. -/
def StandsAt (d : List Byte) (k : Nat) (x : List Byte) : Prop := ∃ rest, d.drop k = x ++ rest

/-- The segments stand in `d` one after the other from offset `k` on. -/
def Lays (d : List Byte) : Nat → List (List Byte) → Prop
  | _, [] => True
  | k, x :: xs => StandsAt d k x ∧ Lays d (k + x.length) xs

section
variable {d : List Byte} {k : Nat} {x : List Byte}

theorem StandsAt.lays {xs : List (List Byte)} (h : StandsAt d k xs.flatten) : Lays d k xs := by
  induction xs generalizing k with
  | nil => trivial
  | cons x xs ih =>
    obtain ⟨rest, hrest⟩ := h
    rw [List.flatten_cons, List.append_assoc] at hrest
    refine ⟨⟨_, hrest⟩, ih ⟨rest, ?_⟩⟩
    rw [← List.drop_drop, hrest, List.drop_left]

theorem standsAt_self (d : List Byte) : StandsAt d 0 d := ⟨[], by simp⟩

theorem StandsAt.take (h : StandsAt d k x) : (d.drop k).take x.length = x := by
  obtain ⟨rest, hrest⟩ := h
  rw [hrest, List.take_left]

theorem StandsAt.byteAt (h : StandsAt d k x) {i : Nat} (hi : i < x.length) : byteAt d (k + i) = byteAt x i := by
  obtain ⟨rest, hrest⟩ := h
  rw [← byteAt_drop, hrest, Machine.byteAt, Machine.byteAt, List.getD_eq_getElem?_getD, List.getD_eq_getElem?_getD,
    List.getElem?_append_left hi]

theorem StandsAt.head {b : Byte} {l : List Byte} (h : StandsAt d k (b :: l)) : Machine.byteAt d k = b :=
  h.byteAt (i := 0) (Nat.succ_pos _)

theorem StandsAt.tail {b : Byte} {l : List Byte} (h : StandsAt d k (b :: l)) : StandsAt d (k + 1) l :=
  h.imp fun rest hrest => by
    rw [← List.drop_drop, hrest]
    rfl

theorem StandsAt.halfAt {g : Half} (h : StandsAt d k (Half.bytes g)) : halfAt d k = g := by
  rw [Machine.halfAt, h.head, h.tail.head]
  exact halfAt_bytes g

theorem StandsAt.wordAt {w : Word} (h : StandsAt d k (Word.bytes w)) : wordAt d k = w := by
  rw [Machine.wordAt, Machine.halfAt, Machine.halfAt, h.head, h.tail.head, h.tail.tail.head, h.tail.tail.tail.head]
  exact wordAt_bytes w

theorem StandsAt.zeros {n : Nat} (h : StandsAt d k (List.replicate n 0)) {j : Nat} (hj : j < n) : Machine.byteAt d (k + j) = 0 := by
  rw [h.byteAt (by simpa using hj), Machine.byteAt, List.getD_eq_getElem?_getD, List.getElem?_replicate, if_pos hj,
    Option.getD_some]

end

theorem byteAt_map_natByte (l : List Nat) (j : Nat) : byteAt (l.map natByte) j = natByte (l.getD j 0) := by
  rw [byteAt, List.getD_eq_getElem?_getD, List.getD_eq_getElem?_getD, List.getElem?_map]
  cases l[j]? <;> rfl

/-! ## The parts of the table -/

section
variable {d : List Byte}

/-- The neighbour in the report of an end: 11 bytes, all 0 where none is shown (R183). -/
def neighbourReport : Option Neighbour → List Byte
  | some n => [Word.bytes n.identity, [n.endCode], Half.bytes n.generation, Word.bytes n.joinedAt].flatten
  | none => List.replicate 11 0

theorem neighbourReport_length (n : Option Neighbour) : (neighbourReport n).length = 11 := by cases n <;> rfl

theorem readEnd_eq (c : Clm) (st : Standing) :
    readEnd c st
      = [[LinkState.code c.link, st.code], neighbourReport (if c.link.isJoined then c.neighbour else none), [c.lastChange.cause.code],
          Word.bytes c.lastChange.clock].flatten := by
  unfold readEnd
  cases (if c.link.isJoined then c.neighbour else none) <;> rfl

theorem readEnd_length (c : Clm) (st : Standing) : (readEnd c st).length = 18 := by
  rw [readEnd_eq]
  simp [neighbourReport_length, Word.bytes]

/-- The report of one end (R183). -/
theorem Clm.readsAs_of_standsAt {c : Clm} {st : Standing} {i : Nat} (h : StandsAt d i (readEnd c st)) : c.readsAs st d i := by
  rw [readEnd_eq] at h
  have hlays := h.lays
  simp only [Lays, neighbourReport_length, List.length_cons, List.length_nil, Nat.add_assoc, Nat.reduceAdd] at hlays
  obtain ⟨hhead, hneighbour, hcause, hclock, -⟩ := hlays
  refine ⟨hhead.head, hhead.tail.head, fun hnone j hj => ?_, fun n hjoined hn => ?_, hcause.head, hclock.wordAt⟩
  · have hzero : (if c.link.isJoined then c.neighbour else none) = none := by
      rcases hnone with h | h <;> simp [h]
    rw [hzero] at hneighbour
    exact hneighbour.zeros hj
  · rw [if_pos hjoined, hn] at hneighbour
    obtain ⟨hidentity, hend, hgeneration, hjoinedAt, -⟩ := hneighbour.lays
    exact ⟨hidentity.wordAt, hend.head, hgeneration.halfAt, hjoinedAt.wordAt⟩

/-- The owner, mode, count and context of a staging: 10 bytes (R183). -/
def bodyReport : Option StagingBody → List Byte
  | some b => [Word.bytes b.owner, [b.mode.code, natByte b.records.length], Word.bytes b.context].flatten
  | none => List.replicate 10 0

/-- The confirmed record: 15 bytes (R183). -/
def confirmedReport : Option ConfirmedRecord → List Byte
  | some r => [Half.bytes r.generation, [natByte r.count], Word.bytes r.check, Word.bytes r.context, Word.bytes r.owner].flatten
  | none => List.replicate 15 0

theorem bodyReport_length (b : Option StagingBody) : (bodyReport b).length = 10 := by cases b <;> rfl

theorem confirmedReport_length (r : Option ConfirmedRecord) : (confirmedReport r).length = 15 := by cases r <;> rfl

theorem readStaging_eq (st : Staging) : readStaging st = [[st.code], bodyReport st.body?, confirmedReport st.confirmed?].flatten := by
  unfold readStaging
  cases st.body? <;> cases st.confirmed? <;> rfl

theorem readStaging_length (st : Staging) : (readStaging st).length = 26 := by
  rw [readStaging_eq]
  simp [bodyReport_length, confirmedReport_length]

theorem Staging.readsAs_of_standsAt {st : Staging} (h : StandsAt d 74 (readStaging st)) : st.readsAs d := by
  rw [readStaging_eq] at h
  have hlays := h.lays
  simp only [Lays, bodyReport_length, List.length_cons, List.length_nil, Nat.reduceAdd] at hlays
  obtain ⟨hcode, hbody, hconfirmed, -⟩ := hlays
  refine ⟨hcode.head, fun h j hj => ?_, fun b h => ?_, fun h j hj => ?_, fun r h => ?_⟩
  · rw [h] at hbody
    exact hbody.zeros hj
  · rw [h] at hbody
    obtain ⟨howner, hmode, hcontext, -⟩ := hbody.lays
    exact ⟨howner.wordAt, hmode.head, hmode.tail.head, hcontext.wordAt⟩
  · rw [h] at hconfirmed
    exact hconfirmed.zeros hj
  · rw [h] at hconfirmed
    obtain ⟨hgeneration, hcount, hcheck, hcontext, howner, -⟩ := hconfirmed.lays
    exact ⟨hgeneration.halfAt, hcount.head, hcheck.wordAt, hcontext.wordAt, howner.wordAt⟩

theorem readLastDiscard_length (r : Option DiscardRecord) : (readLastDiscard r).length = 11 := by cases r <;> rfl

theorem Tallies.bytes_eq (t : Tallies) :
    t.bytes = [Half.bytes t.frameFault, Half.bytes t.staleGeneration, Half.bytes t.stranded, Half.bytes t.foreignLink,
      Half.bytes t.noPath, Half.bytes t.hopExhausted, Half.bytes t.ruleDiscard, Half.bytes t.queueFull, Half.bytes t.poolExhausted,
      Half.bytes t.slotExhausted, Half.bytes t.overtakenReroute, Half.bytes t.flushedAtEnact, Half.bytes t.linkLost].flatten := rfl

/-- The tallies in code order, and the last discard record (R183). -/
theorem DiscardLog.readsAs_of_standsAt {l : DiscardLog} (ht : StandsAt d 116 l.tallies.bytes)
    (hl : StandsAt d 142 (readLastDiscard l.last)) : l.readsAs d := by
  rw [Tallies.bytes_eq] at ht
  obtain ⟨h1, h2, h3, h4, h5, h6, h7, h8, h9, h10, h11, h12, h13, -⟩ := ht.lays
  refine ⟨fun r => ?_, fun h j hj => ?_, fun r h => ?_⟩
  · cases r with
    | frameFault => exact h1.halfAt
    | staleGeneration => exact h2.halfAt
    | stranded => exact h3.halfAt
    | foreignLink => exact h4.halfAt
    | noPath => exact h5.halfAt
    | hopExhausted => exact h6.halfAt
    | ruleDiscard => exact h7.halfAt
    | queueFull => exact h8.halfAt
    | poolExhausted => exact h9.halfAt
    | slotExhausted => exact h10.halfAt
    | overtakenReroute => exact h11.halfAt
    | flushedAtEnact => exact h12.halfAt
    | linkLost => exact h13.halfAt
  · rw [h] at hl
    exact hl.zeros hj
  · rw [h] at hl
    obtain ⟨hhead, hsource, hclock, -⟩ :=
      hl.lays (xs := [[r.discard.reason.code, r.discard.ingress.code, r.discard.kind], Word.bytes r.discard.source, Word.bytes r.clock])
    exact ⟨hhead.head, hhead.tail.head, hhead.tail.tail.head, hsource.wordAt, hclock.wordAt⟩

end

/-! ## The table -/

section
variable (s : State)

/-- The segments of the result data, in the order of R183. -/
def State.readSegments : List (List Byte) :=
  [Word.bytes s.ownId, [flagByte s.cu.loaded, s.power.code, flagByte s.rouse.wakeFlag, s.ru.authority.code],
    readEnd s.clmA s.ru.standingA, readEnd s.clmB s.ru.standingB, Half.bytes s.ru.active.generation, Half.bytes s.ru.priorGeneration,
    [natByte s.ru.active.records.length, natByte s.ownPos, natByte s.ru.cutMap.length], padTo 23 (s.ru.cutMap.map natByte),
    readStaging s.su.staging, [s.eqm.hold.byte, s.eqm.heldInEffect.byte], natHalf s.eqm.freeCells,
    s.eqm.portA.depths ++ s.eqm.portB.depths ++ s.eqm.portC.depths, s.discards.tallies.bytes, readLastDiscard s.discards.last,
    Half.bytes s.cu.refusals, Word.bytes s.clock]

theorem State.readResult_eq : s.readResult = s.readSegments.flatten := by
  simp only [State.readResult, State.readSegments, List.flatten_cons, List.flatten_nil, List.append_nil, List.append_assoc]

theorem Half.bytes_length (g : Half) : (Half.bytes g).length = 2 := rfl

theorem Word.bytes_length (w : Word) : (Word.bytes w).length = 4 := rfl

theorem natHalf_length (n : Nat) : (natHalf n).length = 2 := rfl

theorem Tallies.bytes_length (t : Tallies) : t.bytes.length = 26 := rfl

theorem PortQueues.depths_length (x : PortQueues) : x.depths.length = 4 := rfl

theorem State.readResult_length : s.readResult.length = 159 := by
  rw [State.readResult_eq]
  simp [State.readSegments, readEnd_length, readStaging_length, readLastDiscard_length, Half.bytes_length, Word.bytes_length,
    natHalf_length, Tallies.bytes_length, PortQueues.depths_length]

variable {s} {d : List Byte}

/-- R183: every field of the table stands at its offset. -/
theorem State.readsAs_of_standsAt (hlen : d.length = 159) (h : StandsAt d 0 s.readSegments.flatten) : s.readsAs d := by
  have hlays := h.lays
  simp only [State.readSegments, Lays, readEnd_length, readStaging_length, readLastDiscard_length, Half.bytes_length, Word.bytes_length,
    natHalf_length, Tallies.bytes_length, PortQueues.depths_length, padTo_length, List.length_append, List.length_cons, List.length_nil,
    Nat.reduceAdd] at hlays
  obtain ⟨hid, hflags, hendA, hendB, hactive, hprior, hcounts, hcut, hstaging, hheld, hfree, hdepths, htallies, hlast, hrefusals, hclock,
    -⟩ := hlays
  refine ⟨hlen, hid.wordAt, hflags.head, hflags.tail.head, hflags.tail.tail.head, hflags.tail.tail.tail.head,
    Clm.readsAs_of_standsAt hendA, Clm.readsAs_of_standsAt hendB, hactive.halfAt, fun h => ?_, fun p h => ?_, hcounts.head,
    hcounts.tail.head, hcounts.tail.tail.head, fun j hj => ?_, Staging.readsAs_of_standsAt hstaging, hheld.head, hheld.tail.head,
    hfree.halfAt, hdepths.take, DiscardLog.readsAs_of_standsAt htallies hlast, hrefusals.halfAt, hclock.wordAt⟩
  · rw [hprior.halfAt, RosterUnit.priorGeneration, h]
  · rw [hprior.halfAt, RosterUnit.priorGeneration, h]
  · rw [hcut.byteAt (by simpa using hj), byteAt_padTo _ hj]
    exact byteAt_map_natByte _ _

theorem State.readResult_readsAs (s : State) : s.readsAs s.readResult := by
  refine State.readsAs_of_standsAt s.readResult_length ?_
  rw [← State.readResult_eq]
  exact standsAt_self _

end

/-- Settles O38, by the segments of the result data. -/
theorem readStateReturnsAndClears : Obligations.ReadStateReturnsAndClears := by
  refine fun r s hs hp => ⟨s.readResult_readsAs, fun h => ?_, fun h => ?_, fun x => by cases x <;> rfl⟩
  · rw [exec_of_passes rfl hs hp]
    exact congrArg _ (if_pos h)
  · have hoption : ¬ r.params = [0x00] := by rw [h]; decide
    rw [exec_of_passes rfl hs hp]
    exact congrArg _ ((if_neg hoption).trans (if_pos h))

end Sys2Proof.Machine
end

section
/-! Path choice of a data frame (R75 to R77, R142 to R145), and where the stages of an arrival lead (R12, R78 to R81). -/

namespace Sys2Proof.Machine

section
variable {s : State} {arrival : Port} {f : Frame} {o : ClassOutcome}

/-- The state with the local copy of R144 offered. -/
def State.withLocalCopy (s : State) (arrival : Port) (f : Frame) (o : ClassOutcome) : State :=
  if o.localCopy = true ∧ arrival ≠ .c then s.offer .c o.cls.toCls (dataEntry arrival f o true) else s

/-- The copy of a train-wide frame for one coupler port, in a state `t`: refused for its hops, or offered (R75, R77). -/
def State.trainWideCopy (s : State) (arrival : Port) (f : Frame) (o : ClassOutcome) (t : State) (e : End) : State :=
  if arrival ≠ End.toPort e ∧ s.ru.standing e = .matched then
    (if f.hop = 0 then t.lost .hopExhausted (.port arrival) f.kind.code f.srcId
     else t.offer (End.toPort e) o.cls.toCls (dataEntry arrival f o false))
  else t

theorem State.routeData_of_discard (ho : s.cm.classify arrival f = o) (hd : o.discard = true) :
    s.routeData arrival f = s.lost .ruleDiscard (.port arrival) f.kind.code f.srcId := by
  subst ho
  exact if_pos hd

theorem State.routeData_of_paths {paths : Paths} (ho : s.cm.classify arrival f = o) (hd : o.discard = false)
    (hp : s.choosePaths arrival f = paths) :
    s.routeData arrival f =
      let t := (s.take (paths.refusals.map (f.discard (.port arrival)))).offerCopies arrival f o paths.copies
      if .c ∈ paths.copies then t else t.withLocalCopy arrival f o := by
  subst ho hp
  rw [State.routeData, if_neg (by simp [hd])]
  by_cases hc : Port.c ∈ (s.choosePaths arrival f).copies <;> simp [addsLocalCopy, hc, State.withLocalCopy]

/-! ## Addressed frames -/

theorem State.choosePaths_of_addressed (h : f.dstPos ≠ 0) :
    s.choosePaths arrival f =
      match s.addressedPort (.port arrival) f.dstPos f.dstDev with
      | none => { copies := [], refusals := [.noPath] }
      | some p => if p ≠ .c ∧ f.hop = 0 then { copies := [], refusals := [.hopExhausted] } else { copies := [p], refusals := [] } :=
  if_neg h

section
variable (ho : s.cm.classify arrival f = o) (hd : o.discard = false) (h : f.dstPos ≠ 0)
include ho hd h

/-- R76: the refusal of a frame for which no port is chosen. -/
theorem State.routeData_of_noPath (hq : ∀ q, ¬ s.chooses (.port arrival) f.dstPos f.dstDev q) :
    s.routeData arrival f = (s.lost .noPath (.port arrival) f.kind.code f.srcId).withLocalCopy arrival f o := by
  have hpaths : s.choosePaths arrival f = { copies := [], refusals := [.noPath] } := by
    rw [State.choosePaths_of_addressed h, State.addressedPort_eq_none.2 hq]
  rw [State.routeData_of_paths ho hd hpaths]
  rfl

theorem State.routeData_to_own (hq : s.chooses (.port arrival) f.dstPos f.dstDev .c) :
    s.routeData arrival f = s.offer .c o.cls.toCls (dataEntry arrival f o false) := by
  have hpaths : s.choosePaths arrival f = { copies := [.c], refusals := [] } := by
    rw [State.choosePaths_of_addressed h, State.addressedPort_eq_some.2 hq]
    rfl
  rw [State.routeData_of_paths ho hd hpaths]
  rfl

/-- R76, R77: the frame goes to the coupler port that faces its destination, if it has hops left. -/
theorem State.routeData_to_coupler {e : End} (hq : s.chooses (.port arrival) f.dstPos f.dstDev (End.toPort e)) :
    (f.hop = 0 →
      s.routeData arrival f = (s.lost .hopExhausted (.port arrival) f.kind.code f.srcId).withLocalCopy arrival f o)
    ∧ (f.hop ≠ 0 →
      s.routeData arrival f = (s.offer (End.toPort e) o.cls.toCls (dataEntry arrival f o false)).withLocalCopy arrival f o) := by
  have hchoose := State.choosePaths_of_addressed (s := s) (arrival := arrival) h
  rw [State.addressedPort_eq_some.2 hq] at hchoose
  refine ⟨fun hhop => ?_, fun hhop => ?_⟩
  · rw [State.routeData_of_paths ho hd (hchoose.trans (if_pos ⟨End.toPort_ne_c e, hhop⟩))]
    rfl
  · rw [State.routeData_of_paths ho hd (hchoose.trans (if_neg fun h => hhop h.2))]
    simp only [List.mem_singleton, (End.toPort_ne_c e).symm, if_false]
    rfl

end

/-! ## Train-wide frames -/

theorem State.take_append (s : State) (x y : List Discard) : s.take (x ++ y) = (s.take x).take y := by
  simp only [State.take, DiscardLog.addAll, List.foldl_append]

theorem State.offerCopies_append (s : State) (ps qs : List Port) :
    s.offerCopies arrival f o (ps ++ qs) = (s.offerCopies arrival f o ps).offerCopies arrival f o qs := by
  induction ps generalizing s with
  | nil => rfl
  | cons p ps ih => exact ih _

theorem State.trainWideVia_eq (s : State) (arrival : Port) (hop : Byte) (e : End) :
    s.trainWideVia arrival hop e
      = if arrival ≠ End.toPort e ∧ s.ru.standing e = .matched then
          (if hop = 0 then { copies := [], refusals := [.hopExhausted] } else { copies := [End.toPort e], refusals := [] })
        else { copies := [], refusals := [] } := by
  unfold State.trainWideVia
  by_cases h : arrival = End.toPort e ∨ s.ru.standing e ≠ .matched
  · have hno : ¬ (arrival ≠ End.toPort e ∧ s.ru.standing e = .matched) := fun hn => h.elim hn.1 (absurd hn.2)
    rw [if_pos h, if_neg hno]
  · have hyes : arrival ≠ End.toPort e ∧ s.ru.standing e = .matched := (not_or.1 h).imp id Classical.not_not.1
    rw [if_neg h, if_pos hyes]

/-- The refusal or the copy of one coupler port. -/
theorem State.trainWideCopy_eq (s t : State) (e : End) :
    s.trainWideCopy arrival f o t e
      = (t.take ((s.trainWideVia arrival f.hop e).refusals.map (f.discard (.port arrival)))).offerCopies arrival f o
          (s.trainWideVia arrival f.hop e).copies := by
  rw [State.trainWideVia_eq, State.trainWideCopy]
  by_cases h : arrival ≠ End.toPort e ∧ s.ru.standing e = .matched
  · rw [if_pos h, if_pos h]
    by_cases hhop : f.hop = 0
    · rw [if_pos hhop, if_pos hhop]
      rfl
    · rw [if_neg hhop, if_neg hhop]
      rfl
  · rw [if_neg h, if_neg h]
    rfl

/-- R75: a copy for each coupler port, and one for port C where the frame came in on a coupler port. -/
theorem State.routeData_trainWide (ho : s.cm.classify arrival f = o) (hd : o.discard = false) (h : f.dstPos = 0) :
    s.routeData arrival f =
      let t := s.trainWideCopy arrival f o (s.trainWideCopy arrival f o s .a) .b
      if arrival = .c then t else t.offer .c o.cls.toCls (dataEntry arrival f o false) := by
  have hcopies : (s.choosePaths arrival f).copies = (s.trainWideVia arrival f.hop .a).copies ++ (s.trainWideVia arrival f.hop .b).copies
      ++ (if arrival = .c then [] else [.c]) := by rw [State.choosePaths, if_pos h]
  have hrefusals : (s.choosePaths arrival f).refusals
      = (s.trainWideVia arrival f.hop .a).refusals ++ (s.trainWideVia arrival f.hop .b).refusals := by
    rw [State.choosePaths, if_pos h]
  have hsent : (s.take ((s.choosePaths arrival f).refusals.map (f.discard (.port arrival)))).offerCopies arrival f o
      ((s.trainWideVia arrival f.hop .a).copies ++ (s.trainWideVia arrival f.hop .b).copies)
      = s.trainWideCopy arrival f o (s.trainWideCopy arrival f o s .a) .b := by
    rw [State.trainWideCopy_eq, State.trainWideCopy_eq, hrefusals, List.map_append, State.take_append, State.offerCopies_append]
    by_cases hhop : f.hop = 0
    · have hnone (e : End) : (s.trainWideVia arrival f.hop e).copies = [] := by
        rw [State.trainWideVia_eq, if_pos hhop]
        split <;> rfl
      rw [hnone, hnone]
      rfl
    · have hnone (e : End) : (s.trainWideVia arrival f.hop e).refusals = [] := by
        rw [State.trainWideVia_eq, if_neg hhop]
        split <;> rfl
      rw [hnone, hnone]
      rfl
  rw [State.routeData_of_paths ho hd rfl, hcopies, State.offerCopies_append, hsent]
  by_cases hc : arrival = .c
  · have hlocal (t : State) : t.withLocalCopy arrival f o = t := if_neg fun h => h.2 hc
    simp only [hlocal, ite_self, if_pos hc]
    rfl
  · have hin : .c ∈ (s.trainWideVia arrival f.hop .a).copies ++ (s.trainWideVia arrival f.hop .b).copies ++ [.c] := by simp
    simp only [if_neg hc, if_pos hin]
    rfl

end

/-- The end that faces a destination of R76. -/
def State.Faces (s : State) (own : Record) (dst : Byte) (e : End) : Prop :=
  (dst.toNat < own.position ∧ e = leadEnd own.orientation)
    ∨ (own.position < dst.toNat ∧ dst.toNat ≤ s.ru.active.records.length ∧ e = tailEnd own.orientation)

section
variable {s : State} {arrival q : Port} {dst dev : Byte} {own : Record} {e : End}

theorem State.not_chooses_of_no_record (h : recordOf s.ru.active.records s.ownId = none) : ¬ s.chooses (.port arrival) dst dev q := by
  rintro ⟨own, hown, -⟩
  simp [h] at hown

section
variable (hown : recordOf s.ru.active.records s.ownId = some own)
include hown

theorem State.chooses_iff : s.chooses (.port arrival) dst dev q ↔ arrival ≠ q
    ∧ ((dst.toNat = own.position ∧ dev ≠ 0 ∧ q = .c) ∨ ∃ e, q = End.toPort e ∧ s.ru.standing e = .matched ∧ s.Faces own dst e) := by
  simp [State.chooses, State.Faces, hown]

/-- No end faces the own position. -/
theorem State.chooses_own_iff (hpos : dst.toNat = own.position) :
    s.chooses (.port arrival) dst dev q ↔ dev ≠ 0 ∧ arrival ≠ .c ∧ q = .c := by
  have hno (e : End) : ¬ s.Faces own dst e := by
    rintro (⟨h, -⟩ | ⟨h, -⟩) <;> omega
  rw [State.chooses_iff hown]
  constructor
  · rintro ⟨hq, ⟨-, hdev, rfl⟩ | ⟨e, -, -, he⟩⟩
    · exact ⟨hdev, hq, rfl⟩
    · exact absurd he (hno e)
  · rintro ⟨hdev, ha, rfl⟩
    exact ⟨ha, .inl ⟨hpos, hdev, rfl⟩⟩

theorem State.chooses_facing_iff (he : s.Faces own dst e) :
    s.chooses (.port arrival) dst dev q ↔ arrival ≠ End.toPort e ∧ s.ru.standing e = .matched ∧ q = End.toPort e := by
  have hne : dst.toNat ≠ own.position := by rcases he with ⟨h, -⟩ | ⟨h, -⟩ <;> omega
  have hunique (e' : End) (he' : s.Faces own dst e') : e' = e := by
    rcases he with ⟨h, rfl⟩ | ⟨h, -, rfl⟩ <;> rcases he' with ⟨h', rfl⟩ | ⟨h', -, rfl⟩
    · rfl
    · omega
    · omega
    · rfl
  rw [State.chooses_iff hown]
  constructor
  · rintro ⟨hq, ⟨hpos, -⟩ | ⟨e', rfl, hm, he'⟩⟩
    · exact absurd hpos hne
    · cases hunique e' he'
      exact ⟨hq, hm, rfl⟩
  · rintro ⟨ha, hm, rfl⟩
    exact ⟨ha, .inr ⟨e, rfl, hm, he⟩⟩

theorem State.not_chooses_beyond (h : s.ru.active.records.length < dst.toNat) (h' : own.position < dst.toNat) :
    ¬ s.chooses (.port arrival) dst dev q := by
  rw [State.chooses_iff hown]
  rintro ⟨-, ⟨hpos, -⟩ | ⟨e, -, -, ⟨hlt, -⟩ | ⟨-, hle, -⟩⟩⟩ <;> omega

end

end

/-- Settles O16, by what `State.chooses` says of each destination. -/
theorem dataFramePathChoice : Obligations.DataFramePathChoice := by
  intro s arrival f o ho run lose copy sent extra
  have hextra (t : State) : t.withLocalCopy arrival f o = extra t := rfl
  refine ⟨State.routeData_of_discard ho, fun hd => ⟨fun hnone h => ?_, fun own hown h => ?_, ?_, ?_⟩⟩
  · exact State.routeData_of_noPath ho hd h fun q => State.not_chooses_of_no_record hnone
  · refine ⟨fun hpos hdev ha => ?_, fun hpos hor => ?_, fun hlen hlt => ?_, fun e he => ⟨fun hor => ?_,
      fun ha hm => ?_, fun ha hm => ?_⟩⟩
    · exact State.routeData_to_own ho hd h ((State.chooses_own_iff hown hpos).2 ⟨hdev, ha, rfl⟩)
    · refine State.routeData_of_noPath ho hd h fun q hq => ?_
      obtain ⟨hdev, ha, -⟩ := (State.chooses_own_iff hown hpos).1 hq
      exact hor.elim hdev ha
    · exact State.routeData_of_noPath ho hd h fun q => State.not_chooses_beyond hown hlen hlt
    · refine State.routeData_of_noPath ho hd h fun q hq => ?_
      obtain ⟨ha, hm, -⟩ := (State.chooses_facing_iff hown he).1 hq
      exact hor.elim ha fun hn => hn hm
    · exact (State.routeData_to_coupler ho hd h ((State.chooses_facing_iff hown he).2 ⟨ha, hm, rfl⟩)).1
    · exact (State.routeData_to_coupler ho hd h ((State.chooses_facing_iff hown he).2 ⟨ha, hm, rfl⟩)).2
  · intro h ha via
    have hvia (t : State) (e : End) : s.trainWideCopy arrival f o t e = via t e := by
      have hne : arrival ≠ End.toPort e := ha ▸ (End.toPort_ne_c e).symm
      simp only [State.trainWideCopy, hne, ne_eq, not_false_eq_true, true_and]
      rfl
    show s.routeData arrival f = _
    rw [State.routeData_trainWide ho hd h, if_pos ha, hvia, hvia]
  · intro e h ha t
    have harrival (t : State) : s.trainWideCopy arrival f o t e = t := if_neg fun hn => hn.1 ha
    have hother (u : State) : s.trainWideCopy arrival f o u (End.other e)
        = if s.ru.standing (End.other e) = .matched then
            (if f.hop = 0 then lose u .hopExhausted else sent u (End.toPort (End.other e)))
          else u := by
      have hne : arrival ≠ End.toPort (End.other e) := by rw [ha]; cases e <;> decide
      simp only [State.trainWideCopy, hne, ne_eq, not_false_eq_true, true_and]
      rfl
    have hc : arrival ≠ .c := ha ▸ End.toPort_ne_c e
    have hboth : s.trainWideCopy arrival f o (s.trainWideCopy arrival f o s .a) .b = t := by
      cases e with
      | a => rw [harrival]; exact hother s
      | b => rw [harrival]; exact hother s
    show s.routeData arrival f = _
    rw [State.routeData_trainWide ho hd h, if_neg hc, hboth]
    rfl

end Sys2Proof.Machine
end

section
/-! Where arrivals lead: requests by their target (R79), responses (R80), notices (R81, R135), and the stamp of port C (R6, R12). -/

namespace Sys2Proof.Machine

/-! ## Requests by their target -/

section
variable {s : State} {arrival : Port} {f : Frame}

theorem State.isTarget_iff (p : Port) (w : Word) : s.isTarget p w = true ↔
    (s.cu.loaded = true ∧ w = s.cu.identity) ∨ (w = 0 ∧ p = .c) ∨ w = targetAll := by
  simp [State.isTarget, CommandUnit.isOwn, or_assoc]

theorem State.receiveRequest_of_target (hall : wordAt f.payload 0 ≠ targetAll)
    (h : s.isTarget arrival (wordAt f.payload 0) = true) :
    s.receiveRequest arrival f = s.handleCode (byteAt f.payload 6) (requestOf arrival f) :=
  (if_neg hall).trans (if_pos h)

theorem State.receiveRequest_of_other (hall : wordAt f.payload 0 ≠ targetAll)
    (h : ¬ s.isTarget arrival (wordAt f.payload 0) = true) : s.receiveRequest arrival f = s.flood (.port arrival) f :=
  (if_neg hall).trans (if_neg h)

/-- Of the requests for all, only an ENACT or a RELEASE can be told from its flooding (R79). -/
theorem State.receiveRequest_of_all (hall : wordAt f.payload 0 = targetAll) (h : byteAt f.payload 6 ≠ 0x24)
    (h' : byteAt f.payload 6 ≠ 0x32) :
    s.receiveRequest arrival f = (s.handleCode (byteAt f.payload 6) (requestOf arrival f)).flood (.port arrival) f := by
  have henact : (byteAt f.payload 6 == Command.enact.code) = false := beq_eq_false_iff_ne.2 h
  have hrelease : (byteAt f.payload 6 == Command.release.code) = false := beq_eq_false_iff_ne.2 h'
  exact (if_pos hall).trans (if_neg (by simp [State.enactsNow, State.releasesNow, henact, hrelease]))

/-- The hand-over of a request for all and its flooding, in either order; a choice of the order is counted. -/
theorem State.receiveRequest_of_all_cases (hall : wordAt f.payload 0 = targetAll) :
    ∃ u : State, (u = s ∨ u = { s with free := s.free + 1 })
      ∧ (s.receiveRequest arrival f = (u.handleCode (byteAt f.payload 6) (requestOf arrival f)).flood (.port arrival) f
          ∨ s.receiveRequest arrival f = (u.flood (.port arrival) f).handleCode (byteAt f.payload 6) (requestOf arrival f)) := by
  unfold State.receiveRequest
  rw [if_pos (show (requestOf arrival f).target = targetAll from hall)]
  split
  · refine ⟨_, .inr rfl, ?_⟩
    split
    · exact .inr rfl
    · exact .inl rfl
  · exact ⟨s, .inl rfl, .inl rfl⟩

/-! ## Responses and notices -/

theorem State.routeResponse_own {i : Ingress} {w : Word} (h : s.cu.isOwn w = true) :
    s.routeResponse i f w
      = if i = .port .c then s.lost .noPath i f.kind.code f.srcId else s.offer .c .c0 (controlEntry i f) := if_pos h

theorem State.routeResponse_other {i : Ingress} {w : Word} (h : ¬ s.cu.isOwn w = true) : s.routeResponse i f w = s.flood i f := if_neg h

/-- A notice of the part itself says nothing new (R132). -/
theorem State.interpret_of_own (h : f.srcId = s.ownId) : s.interpret f = s := by
  refine if_pos ?_
  unfold State.interpreted
  split
  · rfl
  · split
    · rfl
    · rfl

theorem State.receiveNotice_of_same (h : (s.interpret f).ru.authority = s.ru.authority) :
    s.receiveNotice arrival f = (s.interpret f).forwardNotice arrival f := if_pos h

/-- R135: the part emits after the receipt changed authority, before or after the forwarding. -/
theorem State.receiveNotice_of_changed (h : (s.interpret f).ru.authority ≠ s.ru.authority) :
    let u := { s.interpret f with free := s.free + 1 }
    s.receiveNotice arrival f = (u.forwardNotice arrival f).announced ∨ s.receiveNotice arrival f = u.announced.forwardNotice arrival f := by
  intro u
  have hfree : (s.interpret f).free = s.free := by
    unfold State.interpret
    split <;> rfl
  have hrun : s.receiveNotice arrival f
      = if Config.freeOrder s.free then (u.forwardNotice arrival f).emit else u.emit.forwardNotice arrival f := by
    unfold State.receiveNotice
    rw [if_neg h, hfree]
  rw [hrun]
  split
  · exact .inl (State.emit_eq_announced _)
  · exact .inr (by rw [State.emit_eq_announced])

/-! ## Flooding -/

/-- The flooded copy for a port other than the one the frame came in by (R78). -/
theorem State.floodPort_of_ne {i : Ingress} {e : End} (h : i ≠ .port (End.toPort e)) :
    s.floodPort i f e
      = if (s.clm e).link.isJoined = true then
          (if f.hop = 0 then s.lost .hopExhausted i f.kind.code f.srcId else s.offer (End.toPort e) .c0 (controlEntry i f))
        else s := by
  rw [State.floodPort, if_neg h]
  cases (s.clm e).link.isJoined <;> rfl

theorem State.floodPort_arrival (e : End) : s.floodPort (.port (End.toPort e)) f e = s := if_pos rfl

theorem State.flood_of_coupler (e : End) :
    s.flood (.port (End.toPort e)) f = s.floodPort (.port (End.toPort e)) f (End.other e) := by
  cases e with
  | a => rw [State.flood, State.floodPort_arrival .a]; rfl
  | b => exact State.floodPort_arrival .b

/-! ## The stages before -/

theorem State.intakeC_of_data {bytes : List Byte} (hf : parseFrame bytes = some f) (h : f.kind.isData = true) :
    s.intakeC bytes = s.routeData .c (s.stamp f) := by
  have hlink : ¬ (f.kind.isLink || decide (f.payload.length < f.kind.fixedBody)) = true := by
    cases hk : f.kind <;> simp [hk, Kind.isData, Kind.isLink, Kind.fixedBody] at h ⊢
  simp only [State.intakeC, hf, if_neg hlink, if_pos h]

theorem State.intakeC_of_control {bytes : List Byte} (hf : parseFrame bytes = some f)
    (h : f.kind = .mgmtReq ∨ f.kind = .mgmtRsp ∨ f.kind = .notice) (hlen : f.kind.fixedBody ≤ f.payload.length) :
    s.intakeC bytes = s.routeControl .c (s.stamp f) := by
  have hlink : f.kind.isLink = false ∧ f.kind.isData = false := by rcases h with h | h | h <;> rw [h] <;> exact ⟨rfl, rfl⟩
  have hshort : ¬ (f.kind.isLink || decide (f.payload.length < f.kind.fixedBody)) = true := by simpa [hlink.1] using hlen
  simp only [State.intakeC, hf, if_neg hshort, hlink.2, Bool.false_eq_true, if_false]

theorem State.dispatch_of_control {e : End} (h : f.kind = .mgmtReq ∨ f.kind = .mgmtRsp ∨ f.kind = .notice)
    (hlen : f.kind.fixedBody ≤ f.payload.length) :
    s.dispatch e f = (s.implicitEnactment f).routeControl (End.toPort e) f := by
  have hshort : ¬ f.payload.length < f.kind.fixedBody := Nat.not_lt.2 hlen
  rcases h with hk | hk | hk
  all_goals
    rw [hk] at hshort
    simp only [State.dispatch, hk, if_neg hshort, State.afterDispatch, Kind.isData, Bool.false_eq_true, if_false]

end

/-- Settles O17. -/
theorem portCArrivalsAreStamped : Obligations.PortCArrivalsAreStamped := by
  intro bytes s f g hs ha hf hg run target code isOwn r
  have hstamp : s.stamp f = g := hg.symm
  have hpayload : g.payload = f.payload := by rw [hg]
  have hsource : g.srcId = s.ownId := by rw [hg]
  have hrun : run = .next (s.intakeC bytes) := exec_arrivalOnPortC_of_active hs ha
  have hcontrol (h : f.kind = .mgmtReq ∨ f.kind = .mgmtRsp ∨ f.kind = .notice) (hlen : f.kind.fixedBody ≤ f.payload.length) :
      run = .next (s.routeControl .c g) := by rw [hrun, State.intakeC_of_control hf h hlen, hstamp]
  refine ⟨fun h => by rw [hrun, State.intakeC_of_data hf h, hstamp], fun hk hlen => ?_, fun hk hlen => ?_, fun hk hlen => ?_, ?_⟩
  · have hown : s.cu.isOwn target = true ↔ isOwn := s.cu.isOwn_iff target
    have hroute : s.routeControl .c g = s.routeResponse (.port .c) g target := by
      have hkind : g.kind = .mgmtRsp := by rw [hg]; exact hk
      simp only [State.routeControl, hkind, hpayload]
      rfl
    rw [hcontrol (.inr (.inl hk)) (by rw [hk]; exact hlen), hroute]
    refine ⟨fun h => ?_, fun h => ?_⟩
    · rw [State.routeResponse_own (hown.2 h), if_pos rfl]
    · rw [State.routeResponse_other (mt hown.1 h)]
  · have hkind : g.kind = .notice := by rw [hg]; exact hk
    have hinterpret := State.interpret_of_own hsource
    rw [hcontrol (.inr (.inr hk)) (by rw [hk]; exact hlen), State.routeControl, hkind]
    refine congrArg _ ((State.receiveNotice_of_same (by rw [hinterpret])).trans ?_)
    rw [hinterpret, State.forwardNotice, if_pos rfl]
  · have htarget : s.isTarget .c target = true ↔ isOwn ∨ target = 0 ∨ target = targetAll := by
      rw [State.isTarget_iff]
      exact or_congr_right (or_congr_left (and_iff_left rfl))
    have hrequest : requestOf .c g = r := by
      rw [requestOf, hpayload, hsource, hg]
    have hroute : s.routeControl .c g = s.receiveRequest .c g := by
      have hkind : g.kind = .mgmtReq := by rw [hg]; exact hk
      rw [State.routeControl, hkind]
    have hcode : byteAt g.payload 6 = code := by rw [hpayload]
    have hword : wordAt g.payload 0 = target := by rw [hpayload]
    rw [hcontrol (.inl hk) (by rw [hk]; exact hlen), hroute, ← hrequest, ← hcode]
    refine ⟨fun h hall => ?_, fun hall h h' => ?_, fun hall _ => ?_, fun h h0 hall => ?_⟩
    · rw [State.receiveRequest_of_target (by rwa [hword]) (by rw [hword]; exact htarget.2 (h.imp_right .inl))]
    · rw [State.receiveRequest_of_all (by rwa [hword]) h h']
    · obtain ⟨u, hu, hrun⟩ := State.receiveRequest_of_all_cases (s := s) (arrival := .c) (f := g) (by rwa [hword])
      exact ⟨u, hu, hrun.imp (congrArg _) (congrArg _)⟩
    · have hno : ¬ s.isTarget .c target = true := fun hn => (htarget.1 hn).elim h fun hn => hn.elim h0 hall
      rw [State.receiveRequest_of_other (by rwa [hword]) (by rwa [hword])]
  · intro u h via
    have hport (e : End) : Ingress.port .c ≠ .port (End.toPort e) := by cases e <;> decide
    rw [State.flood, State.floodPort_of_ne (hport .b), State.floodPort_of_ne (hport .a)]

/-- Settles O19. -/
theorem controlFramesOfCouplerPorts : Obligations.ControlFramesOfCouplerPorts := by
  intro e bytes s f hs ha hf hn run i target isOwn r
  have hcontrol (h : f.kind = .mgmtReq ∨ f.kind = .mgmtRsp ∨ f.kind = .notice) (hlen : f.kind.fixedBody ≤ f.payload.length) :
      run = .next (s.routeControl (End.toPort e) f) := by
    show exec (.arrivalOnCouplerPort e bytes) s = _
    rw [exec_arrivalOnCouplerPort_of_active hs ha, State.intakeCoupler_of_frame hf, State.dispatch_of_control h hlen,
      State.implicitEnactment_of_enactsNothing hn]
  have hc : i ≠ .port .c := by cases e <;> decide
  have hforward (u : State) : u.forwardNotice (End.toPort e) f = (u.flood i f).offer .c .c0 (controlEntry i f) :=
    if_neg (End.toPort_ne_c e)
  refine ⟨fun hk hlen => ?_, fun hk hlen => ?_, fun hk hlen h => ?_, ?_, fun u => ?_⟩
  · have htarget : s.isTarget (End.toPort e) target = true ↔ isOwn ∨ target = targetAll := by
      rw [State.isTarget_iff]
      exact or_congr_right (or_iff_right fun hn => End.toPort_ne_c e hn.2)
    have hroute : s.routeControl (End.toPort e) f = s.receiveRequest (End.toPort e) f := by rw [State.routeControl, hk]
    rw [hcontrol (.inl hk) (by rw [hk]; exact hlen), hroute]
    refine ⟨fun h hall => ?_, fun hall h h' => ?_, fun hall _ => ?_, fun h hall => ?_⟩
    · rw [State.receiveRequest_of_target hall (htarget.2 (.inl h))]
      rfl
    · rw [State.receiveRequest_of_all hall h h']
      rfl
    · obtain ⟨u, hu, hrun⟩ := State.receiveRequest_of_all_cases (s := s) (arrival := End.toPort e) (f := f) hall
      exact ⟨u, hu, hrun.imp (congrArg _) (congrArg _)⟩
    · rw [State.receiveRequest_of_other hall fun hn => (htarget.1 hn).elim h hall]
  · have hown : s.cu.isOwn target = true ↔ isOwn := s.cu.isOwn_iff target
    have hroute : s.routeControl (End.toPort e) f = s.routeResponse i f target := by rw [State.routeControl, hk]
    rw [hcontrol (.inr (.inl hk)) (by rw [hk]; exact hlen), hroute]
    refine ⟨fun h => ?_, fun h => ?_⟩
    · rw [State.routeResponse_own (hown.2 h), if_neg hc]
    · rw [State.routeResponse_other (mt hown.1 h)]
  · have hroute : s.routeControl (End.toPort e) f = s.receiveNotice (End.toPort e) f := by rw [State.routeControl, hk]
    rw [hcontrol (.inr (.inr hk)) (by rw [hk]; exact hlen), hroute, State.receiveNotice_of_same h, hforward]
  · intro hk hlen h u forward
    have hroute : s.routeControl (End.toPort e) f = s.receiveNotice (End.toPort e) f := by rw [State.routeControl, hk]
    rw [hcontrol (.inr (.inr hk)) (by rw [hk]; exact hlen), hroute]
    obtain hrun | hrun := State.receiveNotice_of_changed (arrival := End.toPort e) h
    · rw [hrun]
      exact .inl (by rw [hforward])
    · rw [hrun]
      exact .inr (by rw [hforward])
  · have hother : i ≠ .port (End.toPort (End.other e)) := by cases e <;> decide
    rw [State.flood_of_coupler, State.floodPort_of_ne hother]

end Sys2Proof.Machine
end

section
/-! The severance interpretation (R132, R133, R135). -/

namespace Sys2Proof.Machine

/-! ## Reports of other cars -/

/-- A report says JOINED or FADING with the expected neighbour (R133). -/
theorem endReport_met_iff (p : List Byte) (i : Nat) (x : Expectation) :
    ((endReportAt p i).isJoined && x.isMet (endReportAt p i).neighbour (endReportAt p i).neighbourEnd) = true
      ↔ (byteAt p i = 0x05 ∨ byteAt p i = 0x06) ∧ wordAt p (i + 2) = x.identity ∧ byteAt p (i + 6) = x.endCode := by
  simp [EndReport.isJoined, Expectation.isMet, endReportAt]

theorem isOwnAdjacency_eq_false_iff (p k : Nat) : isOwnAdjacency p k = false ↔ k + 1 ≠ p ∧ k ≠ p := by
  simp [isOwnAdjacency]

/-- The table of R133 for one end: `reported` is the adjacency of its report, `met` what it says. -/
theorem mem_applyReport (own : Nat) (x : Option Expectation) (report : EndReport) (cut : List Nat) (k : Nat) :
    k ∈ applyReport own x report cut ↔
      (∃ y, x = some y ∧ y.adjacency = k ∧ isOwnAdjacency own k = false
          ∧ ¬ (report.isJoined && y.isMet report.neighbour report.neighbourEnd) = true)
        ∨ ((∀ y, x = some y → y.adjacency = k → isOwnAdjacency own k = true) ∧ k ∈ cut) := by
  cases x with
  | none => simp [applyReport]
  | some y =>
    simp only [applyReport, Option.some.injEq, exists_eq_left', forall_eq']
    by_cases hk : y.adjacency = k
    · subst hk
      by_cases hown : isOwnAdjacency own y.adjacency = true
      · simp [hown]
      · by_cases hmet : (report.isJoined && y.isMet report.neighbour report.neighbourEnd) = true
        · simp [hown, hmet, mem_cutRemove]
        · simp [hown, hmet, mem_cutEnter]
    · have hk' : k ≠ y.adjacency := Ne.symm hk
      simp only [hk, false_and, false_or, false_implies, true_and]
      split
      · rfl
      · split
        · simp [mem_cutRemove, hk']
        · simp [mem_cutEnter, hk']

/-- Two reports taken one after the other, where what the first enters the second leaves alone. -/
theorem two_reports_iff {enterA enterB silentA silentB held : Prop} (h : enterA → silentB) :
    enterB ∨ (silentB ∧ (enterA ∨ (silentA ∧ held))) ↔ (enterA ∨ enterB) ∨ ((silentA ∧ silentB) ∧ held) := by
  constructor
  · rintro (hb | ⟨hsb, ha | ⟨hsa, hh⟩⟩)
    · exact .inl (.inr hb)
    · exact .inl (.inl ha)
    · exact .inr ⟨⟨hsa, hsb⟩, hh⟩
  · rintro ((ha | hb) | ⟨⟨hsa, hsb⟩, hh⟩)
    · exact .inr ⟨h ha, .inl ha⟩
    · exact .inl hb
    · exact .inr ⟨hsb, .inr ⟨hsa, hh⟩⟩

section
variable {s : State} {f : Frame} {q : Record}

theorem State.interpret_of_unheeded
    (h : f.generation ≠ s.ru.active.generation ∨ recordOf s.ru.active.records f.srcId = none ∨ f.srcId = s.ownId) :
    s.interpret f = s := by
  refine if_pos ?_
  unfold State.interpreted
  by_cases hg : f.generation ≠ s.ru.active.generation
  · rw [if_pos hg]
  · rw [if_neg hg]
    split
    · rfl
    · rename_i r hr
      exact if_pos (h.elim (absurd · hg) fun h => h.resolve_left (by simp [hr]))

theorem State.interpreted_of_heeded (hg : f.generation = s.ru.active.generation) (hq : recordOf s.ru.active.records f.srcId = some q)
    (hown : f.srcId ≠ s.ownId) :
    s.interpreted f
      = applyReport s.ownPos (expectation s.ru.active.records q .b) (endReportAt f.payload 16)
          (applyReport s.ownPos (expectation s.ru.active.records q .a) (endReportAt f.payload 4) s.ru.cutMap) := by
  rw [State.interpreted, if_neg (not_not_intro hg), hq]
  exact if_neg hown

theorem State.interpret_cutMap (s : State) (f : Frame) : (s.interpret f).ru.cutMap = s.interpreted f := by
  unfold State.interpret
  split
  · rename_i h
    exact h.symm
  · rfl

end

/-- Settles O20: the two ends of a reporter report different adjacencies, and each report is one row of the table of R133. -/
theorem noticeReportsCutMap : Obligations.NoticeReportsCutMap := by
  refine fun s f => ⟨State.interpret_of_unheeded, fun q hg hq hown => ?_⟩
  intro joinedAt reported
  have hsame (h : s.interpreted f = s.ru.cutMap) : s.interpret f = s := if_pos h
  have hchanged (h : s.interpreted f ≠ s.ru.cutMap) : s.interpret f
      = { s with ru := { s.ru with cutMap := s.interpreted f
                                   authority := authorityOf s.ownId s.ru.active.records (s.interpreted f) } } := if_neg h
  rw [State.interpret_cutMap]
  refine ⟨?_, fun k => ?_, hsame, fun h => by rw [hchanged h]⟩
  · by_cases h : s.interpreted f = s.ru.cutMap
    · rw [hsame h, h]
    · rw [hchanged h]
  · have hrow (E : End) (cut : List Nat) :
        k ∈ applyReport s.ownPos (expectation s.ru.active.records q E) (endReportAt f.payload (if E = .a then 4 else 16)) cut
          ↔ (∃ x, reported E x k ∧ ¬ joinedAt E x) ∨ ((∀ x, ¬ reported E x k) ∧ k ∈ cut) := by
      rw [mem_applyReport]
      refine or_congr (exists_congr fun x => ?_) (and_congr_left fun _ => forall_congr' fun x => ?_)
      · rw [endReport_met_iff, isOwnAdjacency_eq_false_iff, ← and_assoc, ← and_assoc, and_assoc (b := x.adjacency = k)]
      · have hreported : reported E x k ↔ expectation s.ru.active.records q E = some x ∧ x.adjacency = k
            ∧ isOwnAdjacency s.ownPos k = false := by rw [isOwnAdjacency_eq_false_iff]
        rw [hreported, ← Bool.not_eq_true, not_and, not_and, Classical.not_not]
    have hends (h : ∃ x, reported .a x k ∧ ¬ joinedAt .a x) (y : Expectation) : ¬ reported .b y k := by
      rintro ⟨hy, hyk, -⟩
      obtain ⟨x, ⟨hx, hxk, -⟩, -⟩ := h
      exact expectation_adjacency_ne hx hy (hxk.trans hyk.symm)
    rw [State.interpreted_of_heeded hg hq hown, exists_end, forall_end]
    refine (hrow .b _).trans ?_
    rw [show k ∈ applyReport s.ownPos (expectation s.ru.active.records q .a) (endReportAt f.payload 4) s.ru.cutMap ↔ _ from hrow .a _]
    exact two_reports_iff hends

end Sys2Proof.Machine
end

section
/-! What the starts after an emission take (R127, R161): the NOTICE, and no frame of C1 to C3. -/

namespace Sys2Proof.Machine

/-! ## The starts after an emission -/

theorem Eqm.queue_setQueue_of_class_ne (q : Eqm) (p p' : Port) {c c' : Cls} (h : c' ≠ c) (l : List Entry) :
    (q.setQueue p c l).queue p' c' = q.queue p' c' := by
  rw [Eqm.queue_setQueue, if_neg fun hc => h hc.2]

/-- A start that takes no frame of a queue leaves it. -/
theorem State.arbitrate_queue {s : State} {p : Port} {c : Cls} (q : Port)
    (h : (s.eqm.port p).tx = none → ∀ x, s.pick p ≠ some (.front c x)) : (s.arbitrate p).eqm.queue q c = s.eqm.queue q c := by
  unfold State.arbitrate
  split
  · rfl
  · rename_i hidle
    split
    · rfl
    · rename_i x hx
      cases x with
      | rouse e | greet e => simp [State.begin]
      | front d y =>
        have hne : c ≠ d := fun hcd => h (by simpa using hidle) y (hcd ▸ hx)
        exact (Eqm.queue_send _ _ _ _ _).trans (s.eqm.queue_setQueue_of_class_ne p q hne _)

/-- Nor do the starts of all three ports. -/
theorem State.begun_queue {s : State} {c : Cls} (q : Port)
    (h : ∀ p, (s.eqm.port p).tx = none → ∀ x, s.pick p ≠ some (.front c x)) : s.begun.eqm.queue q c = s.eqm.queue q c := by
  have later {u : State} {p r : Port} (hp : p ≠ r) (hu : (u.eqm.port p).tx = none → ∀ x, u.pick p ≠ some (.front c x)) :
      ((u.arbitrate r).eqm.port p).tx = none → ∀ x, (u.arbitrate r).pick p ≠ some (.front c x) := by
    obtain ⟨hport, hpick⟩ := u.arbitrate_other hp
    rwa [hport, hpick]
  have hb := later (r := .a) (by decide) (h .b)
  have hc := later (r := .b) (by decide) (later (r := .a) (by decide) (h .c))
  rw [State.begun, State.arbitrate_queue q hc, State.arbitrate_queue q hb, State.arbitrate_queue q (h .a)]

/-- What a copy without a key in C0 leaves of the queue manager: the queues of C1 to C3, the frames on the lines and the hold set. -/
def Eqm.SparesData (q r : Eqm) : Prop :=
  (∀ p c, c ≠ .c0 → r.queue p c = q.queue p c) ∧ (∀ p, (r.port p).tx = (q.port p).tx) ∧ r.hold = q.hold

theorem Eqm.SparesData.trans {q r t : Eqm} (h : q.SparesData r) (h' : r.SparesData t) : q.SparesData t := by
  obtain ⟨hqueue, htx, hhold⟩ := h
  obtain ⟨hqueue', htx', hhold'⟩ := h'
  exact ⟨fun p c hc => (hqueue' p c hc).trans (hqueue p c hc), fun p => (htx' p).trans (htx p), hhold'.trans hhold⟩

theorem Eqm.SparesData.refl (q : Eqm) : q.SparesData q := ⟨fun _ _ _ => rfl, fun _ => rfl, rfl⟩

theorem Eqm.Admission.sparesData {q r : Eqm} {p : Port} {x : Entry} (h : q.Admission p .c0 x r) (hk : x.key = none) :
    q.SparesData r := by
  cases h with
  | refused => exact .refl _
  | inPlace k old n hk' hold => simp [hk] at hk'
  | across k oc old n hk' hold hne hlen => simp [hk] at hk'
  | tail n hfree hlen hslot =>
    refine ⟨fun p' c hc => ?_, fun p' => ?_, ?_⟩
    · rw [Eqm.queue_withFreeCells, Eqm.queue_setQueue_of_class_ne _ _ _ hc]
    · rw [Eqm.port_withFreeCells, Eqm.setQueue_tx]
    · exact Eqm.setQueue_hold _ _ _ _

theorem State.offer_sparesData (s : State) (p : Port) {x : Entry} (hk : x.key = none) :
    s.eqm.SparesData (s.offer p .c0 x).eqm := by
  rw [State.offer_eqm]
  exact (s.eqm.admitCopy_admission _ _ p .c0 x).sparesData hk

theorem State.offerNotice_sparesData (s : State) (f : Frame) (e : End) : s.eqm.SparesData (s.offerNotice f e).eqm := by
  unfold State.offerNotice
  split
  · exact s.offer_sparesData _ rfl
  · exact .refl _

theorem State.emit_sparesData (s : State) : s.eqm.SparesData s.emit.eqm :=
  (s.offerNotice_sparesData _ .a).trans ((State.offerNotice_sparesData _ _ .b).trans (State.offer_sparesData _ .c rfl))

section
variable {s : State} {p : Port} {c : Cls}

theorem State.queuePick_serves {l : List Cls} {x : Entry} (h : s.queuePick p l = some (.front c x)) :
    c ∈ l ∧ s.mayServe p c = true ∧ s.eqm.queue p c ≠ [] := by
  induction l with
  | nil => cases h
  | cons d l ih =>
    unfold State.queuePick at h
    split at h
    · rename_i y rest hserve hqueue
      cases h
      exact ⟨List.mem_cons_self, hserve, by simp [hqueue]⟩
    · obtain ⟨hmem, hrest⟩ := ih h
      exact ⟨List.mem_cons_of_mem _ hmem, hrest⟩

theorem State.queuePick_ne_none {l : List Cls} (hl : c ∈ l) (hc : s.mayServe p c = true) (hq : s.eqm.queue p c ≠ []) :
    s.queuePick p l ≠ none := by
  induction l with
  | nil => cases hl
  | cons d l ih =>
    unfold State.queuePick
    split
    · simp
    · rename_i hno
      refine ih ((List.mem_cons.1 hl).resolve_left fun hcd => ?_)
      obtain ⟨y, rest, hy⟩ := List.exists_cons_of_ne_nil hq
      exact hno y rest (hcd ▸ hc) (hcd ▸ hy)

/-- A port has a frame of a class to send exactly when it may serve the class and its queue holds one. -/
theorem State.pick_serves {x : Entry} (h : s.pick p = some (.front c x)) :
    s.power = .active ∧ s.mayServe p c = true ∧ s.eqm.queue p c ≠ [] := by
  have ha : s.power = .active := by
    cases hp : s.power with
    | active => rfl
    | dormant => simp [State.pick, hp] at h
  cases hslot : s.slotPick p with
  | some y =>
    rw [State.pick_of_slot ha hslot] at h
    obtain ⟨e, -, he⟩ := State.slotPick_end hslot
    cases h
    rcases he with he | he <;> cases he
  | none =>
    rw [State.pick_of_queue ha hslot] at h
    exact ⟨ha, (State.queuePick_serves h).2⟩

theorem State.pick_ne_none (ha : s.power = .active) (hc : s.mayServe p c = true) (hq : s.eqm.queue p c ≠ []) : s.pick p ≠ none := by
  cases hslot : s.slotPick p with
  | some y => simp [State.pick_of_slot ha hslot]
  | none =>
    rw [State.pick_of_queue ha hslot]
    exact State.queuePick_ne_none (by cases c <;> simp) hc hq

/-- The NOTICE of an emission is all that can start because of it: no frame of C1 to C3 does. -/
theorem State.emit_begun_queue (hs : s.served) (hc : c ≠ .c0) (q : Port) : s.emit.begun.eqm.queue q c = s.eqm.queue q c := by
  obtain ⟨hqueue, htx, hhold⟩ := s.emit_sparesData
  refine (State.begun_queue q fun p hidle x hx => ?_).trans (hqueue q c hc)
  obtain ⟨ha, hserve, hne⟩ := State.pick_serves hx
  have hjoined : s.emit.portJoined p = s.portJoined p := by cases p <;> simp [State.portJoined]
  have hmatched : s.emit.portMatched p = s.portMatched p := by cases p <;> simp [State.portMatched]
  rw [Cls.mayServe_iff, hjoined, hmatched, hhold] at hserve
  rw [hqueue p c hc] at hne
  exact State.pick_ne_none (by simpa using ha) ((Cls.mayServe_iff s p c).2 hserve) hne (hs p (by rwa [htx] at hidle))

end

end Sys2Proof.Machine
end

section
/-! The enactment event (R106, R107, R116, R127) and what enacts (R110 to R113). -/

namespace Sys2Proof.Machine

theorem Eqm.setPort_port_self (q : Eqm) (p : Port) : q.setPort p (q.port p) = q := by cases p <;> rfl

theorem PortQueues.withoutData_eq {x : PortQueues} (h1 : x.c1 = []) (h2 : x.c2 = []) (h3 : x.c3 = []) :
    { x with c1 := [], c2 := [], c3 := [] } = x := by
  cases x
  cases h1
  cases h2
  cases h3
  rfl

/-- The standing-leave purge of a port without data frames changes nothing (R166). -/
theorem State.standingLeavePurge_of_empty {s : State} {e : End} (h : ∀ k : DataClass, s.eqm.queue (End.toPort e) k.toCls = []) :
    s.standingLeavePurge e = s := by
  have hport : ({ s.eqm.port (End.toPort e) with c1 := [], c2 := [], c3 := [] } : PortQueues) = s.eqm.port (End.toPort e) :=
    PortQueues.withoutData_eq (h .c1) (h .c2) (h .c3)
  have hlost : s.eqm.queue (End.toPort e) .c1 ++ s.eqm.queue (End.toPort e) .c2 ++ s.eqm.queue (End.toPort e) .c3 = [] := by
    rw [show s.eqm.queue (End.toPort e) .c1 = [] from h .c1, show s.eqm.queue (End.toPort e) .c2 = [] from h .c2,
      show s.eqm.queue (End.toPort e) .c3 = [] from h .c3]
    rfl
  simp only [State.standingLeavePurge, Eqm.purgeQueues_data, hlost, hport, Eqm.setPort_port_self]
  rfl

section
variable (s : State) (b : StagingBody) (c : ConfirmedRecord)

/-- The rosters exchanged and the judgements computed anew, before the re-evaluation (R106, R107). -/
def State.exchanged : State := (s.swapRosters b c).recompute true

theorem State.exchanged_eq :
    s.exchanged b c = { s with ru := (s.exchanged b c).ru, su := .powerOn
                               ng := { s.ng with settled := (s.exchanged b c).ng.settled } } := rfl

/-- The re-evaluation leaves no data frame on the port of an end that does not stand MATCHED, so the purge finds none (R66, R116). -/
theorem State.purgeIfLeft_reevaluate (t : State) (u : RosterUnit) (e : End) : t.reevaluate.purgeIfLeft u e = t.reevaluate := by
  by_cases h : u.standing e = .matched ∧ t.reevaluate.ru.standing e ≠ .matched
  · rw [State.purgeIfLeft_of_left h]
    have hstanding : t.ru.standing e ≠ .matched := by simpa using h.2
    have hunmatched : t.portMatched (End.toPort e) = false :=
      eq_false_of_ne_true (mt (t.portMatched_toPort e).1 hstanding)
    exact State.standingLeavePurge_of_empty fun k => State.reevaluate_unservable (.inr hunmatched)
  · rw [State.purgeIfLeft_of_not_left h]

theorem State.enactment_eq :
    s.enactment b c = ((s.exchanged b c).reevaluate.begun.handOverNotice false s.ru).begun := by
  have hpurge := (s.exchanged b c).purgeIfLeft_reevaluate s.ru
  show ((((s.exchanged b c).reevaluate.purgeIfLeft s.ru .a).purgeIfLeft s.ru .b).begun.handOverNotice false s.ru).begun = _
  rw [hpurge, hpurge]

@[simp] theorem State.enactment_ru : (s.enactment b c).ru = (s.exchanged b c).ru := by simp [State.enactment_eq]

@[simp] theorem State.enactment_su : (s.enactment b c).su = .powerOn := by
  have hsu : (s.exchanged b c).su = .powerOn := rfl
  simp [State.enactment_eq, hsu]

theorem State.enactment_settled : (s.enactment b c).ng.settled = (s.exchanged b c).ng.settled := by simp [State.enactment_eq]

theorem State.enactment_served : (s.enactment b c).served := by
  rw [State.enactment_eq]
  exact State.served_begun _

/-- What no enactment touches (R106). -/
theorem State.enactment_rest :
    (s.enactment b c).lines = s.lines ∧ (s.enactment b c).power = s.power ∧ (s.enactment b c).clock = s.clock
      ∧ (s.enactment b c).rouse = s.rouse ∧ (s.enactment b c).cm = s.cm ∧ (s.enactment b c).cu = s.cu
      ∧ (s.enactment b c).free = s.free ∧ (s.enactment b c).pending = s.pending := by
  rw [State.enactment_eq, State.exchanged_eq]
  simp

theorem State.exchanged_reevaluate_clm (e : End) : (s.exchanged b c).reevaluate.clm e = s.clm e := by
  rw [State.exchanged_eq]
  cases e <;> simp [State.clm]

/-- Of a link monitor an enactment changes the slot alone. -/
theorem State.enactment_clm (e : End) : ∃ slot, (s.enactment b c).clm e = { s.clm e with slot := slot } := by
  have hclm := s.exchanged_reevaluate_clm b c e
  obtain ⟨x, hx⟩ := (s.exchanged b c).reevaluate.begun_clm e
  obtain ⟨y, hy⟩ := ((s.exchanged b c).reevaluate.begun.handOverNotice false s.ru).begun_clm e
  have hhand : ((s.exchanged b c).reevaluate.begun.handOverNotice false s.ru).clm e = (s.exchanged b c).reevaluate.begun.clm e := by simp
  exact ⟨y, by rw [State.enactment_eq, hy, hhand, hx, hclm]⟩

theorem State.exchanged_prior :
    (s.exchanged b c).ru.prior
        = (if s.ru.active.records.isEmpty then none
           else some { records := s.ru.active.records, generation := s.ru.active.generation })
      ∧ (s.exchanged b c).ru.grace = (if (s.exchanged b c).ru.prior.isSome then startMs s.cu.timing.gracePeriod else none) :=
  ⟨rfl, rfl⟩

/-- The judgements of an enactment are those of the links and the new roster (R69, R106). -/
theorem State.enactment_judgedFrom : (s.enactment b c).judgedFrom (fun _ => False) := by
  have hpurge := (s.exchanged b c).purgeIfLeft_reevaluate s.ru
  have hjudged : (s.exchanged b c).reevaluate.judgedFrom (fun _ => False) := by
    have h := s.changeover_judgedFrom b c
    rwa [← State.exchanged, hpurge, hpurge] at h
  have hru : (s.enactment b c).ru = (s.exchanged b c).reevaluate.ru := by simp
  refine hjudged.congr (fun e x => ?_) (fun e => by rw [hru]) (by rw [hru]) (by rw [hru]) (by rw [hru]) ?_ ?_
  · obtain ⟨slot, hslot⟩ := s.enactment_clm b c e
    rw [hslot, State.exchanged_reevaluate_clm]
    rfl
  · obtain ⟨-, -, -, -, -, hcu, -⟩ := s.enactment_rest b c
    have hcu' : (s.exchanged b c).reevaluate.cu = s.cu := by
      rw [State.exchanged_eq]
      simp
    rw [State.ownId, hcu, State.ownId, hcu']
  · rw [State.enactment_settled]
    simp

end

/-- Settles O22: an enactment exchanges the rosters, judges and re-evaluates; what it hands over is one emission. -/
theorem enactmentSwapsRosters : Obligations.EnactmentSwapsRosters := by
  intro s b c t u
  have hru : t.ru = (s.exchanged b c).ru := s.enactment_ru b c
  have hu : u = (s.exchanged b c).reevaluate.begun := by
    have hsu : t.su = .powerOn := s.enactment_su b c
    have hsettled : t.ng.settled = (s.exchanged b c).ng.settled := s.enactment_settled b c
    rw [State.exchanged_eq, ← hru, ← hsettled, ← hsu]
  have ht : t = (u.handOverNotice false s.ru).begun := by rw [hu]; exact s.enactment_eq b c
  have huru : u.ru = t.ru := by rw [hru, hu]; simp
  have hserved : u.served := by rw [hu]; exact State.served_begun _
  have hchange : (∃ e, t.ru.standing e ≠ s.ru.standing e) ∨ t.ru.authority ≠ s.ru.authority
      ↔ (false = true ∨ u.ru.standingA ≠ s.ru.standingA ∨ u.ru.standingB ≠ s.ru.standingB ∨ u.ru.authority ≠ s.ru.authority) := by
    rw [huru, exists_end, or_assoc]
    simp [RosterUnit.standing]
  have hhanded (h : (∃ e, t.ru.standing e ≠ s.ru.standing e) ∨ t.ru.authority ≠ s.ru.authority) :
      u.handOverNotice false s.ru = u.emit := if_pos (hchange.1 h)
  have hquiet (h : ¬ ((∃ e, t.ru.standing e ≠ s.ru.standing e) ∨ t.ru.authority ≠ s.ru.authority)) :
      u.handOverNotice false s.ru = u := if_neg (mt hchange.2 h)
  refine ⟨State.eq_of_fields ?_, ?_, fun hnil => ?_, fun hnil => ?_, s.enactment_su b c, ?_, fun h => ?_, fun hst hauth => ?_, hserved,
    s.enactment_served b c, fun p k => ?_⟩
  · obtain ⟨slotA, hA⟩ := s.enactment_clm b c .a
    obtain ⟨slotB, hB⟩ := s.enactment_clm b c .b
    have hslotA : t.clmA = { s.clmA with slot := t.clmA.slot } := by rw [show t.clmA = _ from hA]; rfl
    have hslotB : t.clmB = { s.clmB with slot := t.clmB.slot } := by rw [show t.clmB = _ from hB]; rfl
    obtain ⟨hlines, hpower, hclock, hrouse, hcm, hcu, hfree, hpending⟩ := s.enactment_rest b c
    exact ⟨hlines, hpower, hclock, hslotA, hslotB, hrouse, rfl, rfl, rfl, hcm, rfl, rfl, hcu, hfree, hpending⟩
  · rw [hru]
    rfl
  · obtain ⟨hprior, hgrace⟩ := s.exchanged_prior b c
    rw [hru, hgrace, hprior, hnil]
    exact ⟨rfl, rfl⟩
  · obtain ⟨hprior, hgrace⟩ := s.exchanged_prior b c
    have hempty : ¬ s.ru.active.records.isEmpty = true := by simpa using hnil
    rw [hru, hgrace, hprior, if_neg hempty]
    exact ⟨rfl, rfl⟩
  · exact s.enactment_judgedFrom b c
  · rw [ht, hhanded h, State.emit_eq_announced]
  · have hno : ¬ ((∃ e, t.ru.standing e ≠ s.ru.standing e) ∨ t.ru.authority ≠ s.ru.authority) := by
      rintro (⟨e, he⟩ | h)
      · exact he (hst e)
      · exact h hauth
    rw [ht, hquiet hno, State.begun_of_served hserved]
  · rw [ht]
    by_cases h : (∃ e, t.ru.standing e ≠ s.ru.standing e) ∨ t.ru.authority ≠ s.ru.authority
    · rw [hhanded h]
      exact State.emit_begun_queue hserved (Eqm.SleepMarks.toCls_ne_c0 k) p
    · rw [hquiet h, State.begun_of_served hserved]

/-! ## ENACT and the arrivals that enact -/

theorem State.enactConfirmed_of_confirmed {s : State} {b : StagingBody} {c : ConfirmedRecord} (h : s.su.staging = .confirmed b c) :
    s.enactConfirmed = s.enactment b c := by rw [State.enactConfirmed, h]

section
variable {s : State} {r : Request}

/-- R111: nothing but a CONFIRMED staging is enacted. -/
theorem State.enactRefusal_of_not_confirmed (hlen : r.params.length = 2) (h : ∀ b c, s.su.staging ≠ .confirmed b c) :
    s.enactRefusal r = some (.notConfirmed, [s.su.staging.code]) := by
  rw [State.enactRefusal, if_neg (not_not_intro hlen)]
  cases hst : s.su.staging with
  | confirmed b c => exact absurd hst (h b c)
  | empty | filling b | confirming b t => rfl

theorem State.enactRefusal_of_confirmed {b : StagingBody} {c : ConfirmedRecord} (hlen : r.params.length = 2)
    (h : s.su.staging = .confirmed b c) :
    s.enactRefusal r
      = if halfAt r.params 0 ≠ c.generation then some (.generationMismatch, Half.bytes c.generation)
        else if r.port = .c ∨ s.isMaster (Request.sender r) = true ∨ b.owner = Request.sender r ∨ s.ru.authority ≠ .governed then none
        else some (.notAuthorised, []) := by
  rw [State.enactRefusal, if_neg (not_not_intro hlen), h]

theorem State.cmdEnact_of_refusal {o : ReplyCode} {d : List Byte} (h : s.enactRefusal r = some (o, d)) :
    s.cmdEnact r = ({ s with cu := { s.cu with refusals := saturate s.cu.refusals } }).respond r 0x24 o d := by
  rw [State.cmdEnact, h]
  rfl

theorem State.cmdEnact_of_granted (h : s.enactRefusal r = none) :
    s.cmdEnact r = s.enactConfirmed.respond r 0x24 .done s.enactConfirmed.enactResult := by
  rw [State.cmdEnact, h]
  rfl

end

theorem State.implicitEnactment_of_confirmed {s : State} {b : StagingBody} {c : ConfirmedRecord} {f : Frame}
    (h : s.su.staging = .confirmed b c) (hg : f.generation = c.generation) : s.implicitEnactment f = s.enactment b c := by
  rw [State.implicitEnactment, h]
  exact if_pos hg

/-- The stages after the enactment of an arrival read the state it leaves. -/
theorem State.dispatch_of_implicitEnactment {s t : State} {e : End} {f : Frame} (hgreet : f.kind ≠ .greet) (hrouse : f.kind ≠ .rouse)
    (hlen : f.kind.fixedBody ≤ f.payload.length) (h : s.implicitEnactment f = t.implicitEnactment f) : s.dispatch e f = t.dispatch e f := by
  cases hk : f.kind with
  | process | message | bulk =>
    have hdata : f.kind.isData = true := by rw [hk]; rfl
    rw [State.dispatch_of_data hdata, State.dispatch_of_data hdata, h]
  | mgmtReq | mgmtRsp | notice =>
    have hcontrol : f.kind = .mgmtReq ∨ f.kind = .mgmtRsp ∨ f.kind = .notice := by simp [hk]
    rw [State.dispatch_of_control hcontrol hlen, State.dispatch_of_control hcontrol hlen, h]
  | greet => exact absurd hk hgreet
  | rouse => exact absurd hk hrouse

/-- Settles O21: the refusals of an ENACT in order, and an arrival that enacts finds the enactment made. -/
theorem enactCommandAndArrivalEnact : Obligations.EnactCommandAndArrivalEnact := by
  refine ⟨fun s r hs hp hlen => ?_, fun s b c e bytes f hs hst ha hf hgreet hrouse hlen hg => ?_⟩
  · intro refused granted
    have hrun : exec (.enact r) s = .next (s.cmdEnact r) := exec_of_passes rfl hs hp
    have hrefused {o : ReplyCode} {d : List Byte} (h : s.enactRefusal r = some (o, d)) : refused o d := by
      show exec (.enact r) s = _
      rw [hrun, State.cmdEnact_of_refusal h]
    refine ⟨fun h => hrefused (State.enactRefusal_of_not_confirmed hlen h), fun b c hst => ?_⟩
    have hgranted : (r.port = .c ∨ s.isMaster (Request.sender r) = true ∨ b.owner = Request.sender r ∨ s.ru.authority ≠ .governed)
        ↔ granted := by
      have hbody : s.su.staging.body? = some b := by rw [hst]; rfl
      simp only [granted, State.isMaster_iff, hbody, Option.some.injEq, exists_eq_left']
    have htests := State.enactRefusal_of_confirmed hlen hst
    refine ⟨fun hg => hrefused (htests.trans (if_pos hg)), fun hg hn => hrefused ?_, fun hg hy => ?_⟩
    · rw [htests, if_neg (not_not_intro hg), if_neg (mt hgranted.1 hn)]
    · have hnone : s.enactRefusal r = none := by rw [htests, if_neg (not_not_intro hg), if_pos (hgranted.2 hy)]
      rw [hrun, State.cmdEnact_of_granted hnone, State.enactConfirmed_of_confirmed hst]
      rfl
  · obtain ⟨-, hpower, -⟩ := s.enactment_rest b c
    have hempty : (s.enactment b c).enactsNothing f.generation := by
      intro b' c' h
      rw [State.enactment_su] at h
      cases h
    have hsame : s.implicitEnactment f = (s.enactment b c).implicitEnactment f := by
      rw [State.implicitEnactment_of_confirmed hst hg, State.implicitEnactment_of_enactsNothing hempty]
    rw [exec_arrivalOnCouplerPort_of_active hs ha, exec_arrivalOnCouplerPort_of_active (s.enactment_served b c) (hpower.trans ha),
      State.intakeCoupler_of_frame hf, State.intakeCoupler_of_frame hf, State.dispatch_of_implicitEnactment hgreet hrouse hlen hsame]

end Sys2Proof.Machine
end
